-- ==== Sys2Proof/Word.lean ====
section
/-!
DEFINITION. The word types of the block: a byte, the 16-bit field of a frame, the 32-bit result register, the
64-bit command word (00_scope R9, 10_state R20, 30_encoding R95).
-/

namespace Sys2Proof

/-- A byte is 8 bits (00_scope R9). -/
abbrev Byte := BitVec 8

/-- A 16-bit operand or frame field (30_encoding R95, R99). -/
abbrev Half := BitVec 16

/-- A result register or 32-bit configuration register (10_state R20). -/
abbrev Word := BitVec 32

/-- A 9-bit length register (10_state R20, R36). -/
abbrev Len := BitVec 9

end Sys2Proof
end

