-- ==== Sys2Proof/Syntax.lean ====
section
/-!
DEFINITION. The instructions: one constructor per row of spec/opcode_table.json. Nineteen host commands
(30_encoding R97), four transport events (R101), TICK (R102), RESET (70_reset_and_hazards R280) and the eleven wire
function codes (30_encoding R83, R88). Also the word a delivery brings on each of the block's ports.
-/

namespace Sys2Proof

/-- One constructor per row of the opcode table. Operands are the raw fields of the word (30_encoding R95, R96,
R99), so that a reserved value can be written down and is refused by the meaning (R98). -/
inductive Instr where
  -- buffer and configuration commands, 44_buffer_config
  | nop
  | cfgw (reg : Byte) (value : Word)
  | cfgr (reg : Byte)
  -- checksum, 40_checksum
  | crc16 (b : Byte) (len : Half)
  | crcv (b : Byte) (len : Half)
  -- buffer commands, 44_buffer_config
  | txclr
  | pushb (byte : Byte)
  | ldb (b : Byte) (idx : Half)
  -- frame encode, 41_frame_encode
  | bldreq (slave function : Byte) (addr count : Half)
  | bldrsp (function : Byte)
  | bldexc (code : Byte)
  | final
  -- predict and decode, 42_predict_decode
  | predict (w : Byte)
  | decreq (b : Byte)
  | decrsp
  | chkqty (w : Byte)
  | unpack (w : Byte) (idx : Half)
  -- receiver commands, 43_receiver
  | rxfix (expected : Word)
  | rxund
  -- transport events, 30_encoding R101
  | evByte (data : Byte)
  | evClosed
  | evFail
  | evIntr
  -- time and reset
  | tick
  | reset
  -- wire function codes, 30_encoding R83 and R88
  | fc01
  | fc02
  | fc03
  | fc04
  | fc05
  | fc06
  | fc07
  | fc0F
  | fc10
  | fc11
  | fcException (f : BitVec 7)
  deriving DecidableEq, Repr

/-- What one delivery of the environment puts on a port of the block: a command word (30_encoding R95), an event
word (R101), the TICK strobe (R102), the RESET strobe (70_reset_and_hazards R280), or the wire byte that is the
function byte of a frame (R83; log entry 4). -/
inductive PortWord where
  | command (w : BitVec 64)
  | transport (w : BitVec 10)
  | tick
  | reset
  | functionByte (b : Byte)
  deriving DecidableEq, Repr, Inhabited

/-- The three kinds of event of 00_scope R5, and RESET (70_reset_and_hazards R280). -/
inductive Port where
  | host
  | transport
  | time
  | reset
  deriving DecidableEq, Repr

/-- The port a word arrives on. -/
def PortWord.port : PortWord → Port
  | .command _ => .host
  | .transport _ => .transport
  | .tick => .time
  | .reset => .reset
  | .functionByte _ => .transport

/-- The port an instruction arrives on: the nineteen commands of 30_encoding R97 come from the host, the transport
events and the wire function codes from the transport. -/
def Instr.port : Instr → Port
  | .nop => .host
  | .cfgw _ _ => .host
  | .cfgr _ => .host
  | .crc16 _ _ => .host
  | .crcv _ _ => .host
  | .txclr => .host
  | .pushb _ => .host
  | .ldb _ _ => .host
  | .bldreq _ _ _ _ => .host
  | .bldrsp _ => .host
  | .bldexc _ => .host
  | .final => .host
  | .predict _ => .host
  | .decreq _ => .host
  | .decrsp => .host
  | .chkqty _ => .host
  | .unpack _ _ => .host
  | .rxfix _ => .host
  | .rxund => .host
  | .evByte _ => .transport
  | .evClosed => .transport
  | .evFail => .transport
  | .evIntr => .transport
  | .tick => .time
  | .reset => .reset
  | .fc01 => .transport
  | .fc02 => .transport
  | .fc03 => .transport
  | .fc04 => .transport
  | .fc05 => .transport
  | .fc06 => .transport
  | .fc07 => .transport
  | .fc0F => .transport
  | .fc10 => .transport
  | .fc11 => .transport
  | .fcException _ => .transport

end Sys2Proof
end

