-- ==== Sys2Proof/Config.lean ====
section
/-!
DEFINITION. The constants the source fixes per Transport Mode (00_scope R6, R7), the parameters the spec fixes
(R8), and what the spec leaves open: two parameters (R8, 92_eei_decisions D10) and the order of the environment's events
(R5, 93_implementation_defined item 10). These have no body.
-/

namespace Sys2Proof

/-- Transport Mode, fixed per connection (10_state R25): 0 = RTU, 1 = TCP. -/
inductive Mode where
  | rtu
  | tcp
  deriving DecidableEq, Repr

namespace Config

/-- `HDR(m)`: bytes before the function code (00_scope R6). -/
def hdr : Mode → Nat
  | .rtu => 1
  | .tcp => 7

/-- `CK(m)`: checksum bytes (00_scope R6). -/
def ck : Mode → Nat
  | .rtu => 2
  | .tcp => 0

/-- `MAXADU(m)`: maximum frame length (00_scope R6). -/
def maxAdu : Mode → Nat
  | .rtu => 256
  | .tcp => 260

/-- `EXCLEN(m) = HDR(m) + 2 + CK(m)`: length of an exception response frame (00_scope R7). -/
def excLen (m : Mode) : Nat := hdr m + 2 + ck m

/-- `MBAP_PREFIX`: bytes of the MBAP header before the unit id (00_scope R6). -/
def mbapPrefix : Nat := 6

/-- `BUFSZ`: bytes of one frame buffer (00_scope R8). -/
def bufSize : Nat := 260

/-- `CRC_SEED` (00_scope R6). -/
def crcSeed : Half := 0xFFFF#16

/-- `T_FIRST_RESET`: 5 s at 1000 ticks per second (00_scope R8). -/
def tFirstReset : Word := 5000#32

/-- `TID_RESET` (00_scope R8). -/
def tidReset : Half := 0#16

/-- `T_EOF_RESET`: the spec leaves it an open parameter of the model (00_scope R8, 92_eei_decisions D10).
DESIGN CHOICE (log entry 2): an opaque constant, so that no proof can know its value. Safe. -/
opaque tEofReset : Word

/-- `T_RESP_RESET`: the spec leaves it an open parameter of the model (00_scope R8, 92_eei_decisions D10).
DESIGN CHOICE (log entry 2): an opaque constant, so that no proof can know its value. Safe. -/
opaque tRespReset : Word

/-- The `n`-th event of an order the spec leaves free (00_scope R5, 93_implementation_defined item 10). DESIGN CHOICE
(log entry 1): a free value, so that a claim about it holds for every endless order of events. Safe. -/
opaque freeEvent : Nat → PortWord

end Config

end Sys2Proof
end

