-- ==== Sys2Proof/WellFormed.lean ====
section
/-!
DEFINITION. Which instructions are well formed: the reserved operand values of 30_encoding R98 are not. Everything
else an instruction can hold is legal (R99).
-/

namespace Sys2Proof

/-- A buffer select is 0 or 1 (30_encoding R96, R98). -/
def legalBuffer (b : Byte) : Bool := decide (b.toNat ≤ 1)

/-- A width code is 0 to 9 (30_encoding R92, R98). -/
def legalWidth (w : Byte) : Bool := decide (w.toNat ≤ 9)

/-- CFGW reaches indices 0 to 3, and MODE takes 0 or 1 (10_state R29, 30_encoding R98, 44_buffer_config R231). -/
def legalWrite (reg : Byte) (value : Word) : Bool :=
  decide (reg.toNat ≤ 3) && (decide (reg.toNat ≠ 0) || decide (value.toNat ≤ 1))

/-- CFGR reaches indices 0 to 3 and 8 to 17 (10_state R29, 44_buffer_config R232). -/
def legalRead (reg : Byte) : Bool :=
  decide (reg.toNat ≤ 3) || (decide (8 ≤ reg.toNat) && decide (reg.toNat ≤ 17))

/-- No reserved operand value stands in the instruction (30_encoding R98). -/
def Instr.wellFormed : Instr → Bool
  | .nop => true
  | .cfgw reg value => legalWrite reg value
  | .cfgr reg => legalRead reg
  | .crc16 b _ => legalBuffer b
  | .crcv b _ => legalBuffer b
  | .txclr => true
  | .pushb _ => true
  | .ldb b _ => legalBuffer b
  | .bldreq _ _ _ _ => true
  | .bldrsp _ => true
  | .bldexc _ => true
  | .final => true
  | .predict w => legalWidth w
  | .decreq b => legalBuffer b
  | .decrsp => true
  | .chkqty w => legalWidth w
  | .unpack w _ => legalWidth w
  | .rxfix _ => true
  | .rxund => true
  | .evByte _ => true
  | .evClosed => true
  | .evFail => true
  | .evIntr => true
  | .tick => true
  | .reset => true
  | .fc01 => true
  | .fc02 => true
  | .fc03 => true
  | .fc04 => true
  | .fc05 => true
  | .fc06 => true
  | .fc07 => true
  | .fc0F => true
  | .fc10 => true
  | .fc11 => true
  | .fcException _ => true

end Sys2Proof
end

