-- ==== Sys2Proof/Decode.lean ====
section
/-!
DEFINITION. From the words on the block's ports to instructions and back: the command word (30_encoding R95 to R98),
the event word (R101), the wire function codes (R83, R88), and the opcode table's own numbering of them.
-/

namespace Sys2Proof

/-- Why a command word is malformed (30_encoding R98); the block answers each with ILLEGAL_CMD. -/
inductive DecodeError where
  /-- `op` is not in the table of R97. -/
  | reservedOpcode
  /-- `z`, or a field the format marks 0, is not zero. -/
  | reservedField
  /-- A reserved buffer select, width code, register index or MODE value. -/
  | reservedOperand
  deriving DecidableEq, Repr

/-- The fields of a command word (30_encoding R95). -/
structure Fields where
  op : Byte
  f1 : Byte
  f2 : Byte
  w1 : Half
  w2 : Half
  z : Byte
  deriving DecidableEq, Repr

/-- The operand formats (30_encoding R96). -/
inductive Format where
  | fmtN
  | fmtC
  | fmtG
  | fmtL
  | fmtS
  | fmtI
  | fmtQ
  | fmtF
  | fmtW
  | fmtU
  | fmtX
  deriving DecidableEq, Repr

/-- Take a command word apart: op 63:56, f1 55:48, f2 47:40, w1 39:24, w2 23:8, z 7:0 (30_encoding R95). -/
def fieldsOf (w : BitVec 64) : Fields where
  op := w.extractLsb' 56 8
  f1 := w.extractLsb' 48 8
  f2 := w.extractLsb' 40 8
  w1 := w.extractLsb' 24 16
  w2 := w.extractLsb' 8 16
  z := w.extractLsb' 0 8

/-- Put a command word together (30_encoding R95). -/
def wordOf (x : Fields) : BitVec 64 :=
  x.op ++ x.f1 ++ x.f2 ++ x.w1 ++ x.w2 ++ x.z

/-- The fields a format marks 0 are zero (30_encoding R96, R98). -/
def unusedZero : Format → Fields → Bool
  | .fmtN, x => decide (x.f1 = 0#8 ∧ x.f2 = 0#8 ∧ x.w1 = 0#16 ∧ x.w2 = 0#16)
  | .fmtC, x => decide (x.f2 = 0#8)
  | .fmtG, x => decide (x.f2 = 0#8 ∧ x.w1 = 0#16 ∧ x.w2 = 0#16)
  | .fmtL, x => decide (x.f2 = 0#8 ∧ x.w2 = 0#16)
  | .fmtS, x => decide (x.f2 = 0#8 ∧ x.w1 = 0#16 ∧ x.w2 = 0#16)
  | .fmtI, x => decide (x.f2 = 0#8 ∧ x.w1 = 0#16 ∧ x.w2 = 0#16)
  | .fmtQ, _ => true
  | .fmtF, x => decide (x.f1 = 0#8 ∧ x.w1 = 0#16 ∧ x.w2 = 0#16)
  | .fmtW, x => decide (x.f2 = 0#8 ∧ x.w1 = 0#16 ∧ x.w2 = 0#16)
  | .fmtU, x => decide (x.f2 = 0#8 ∧ x.w2 = 0#16)
  | .fmtX, x => decide (x.f1 = 0#8 ∧ x.f2 = 0#8)

/-- The opcode map: format and instruction of each opcode (30_encoding R97). The 32-bit operand is `{w1, w2}`
(R95). -/
def opcodeMap (x : Fields) : Option (Format × Instr) :=
  if x.op = 0x00#8 then some (.fmtN, .nop)
  else if x.op = 0x01#8 then some (.fmtC, .cfgw x.f1 (x.w1 ++ x.w2))
  else if x.op = 0x02#8 then some (.fmtG, .cfgr x.f1)
  else if x.op = 0x10#8 then some (.fmtL, .crc16 x.f1 x.w1)
  else if x.op = 0x11#8 then some (.fmtL, .crcv x.f1 x.w1)
  else if x.op = 0x20#8 then some (.fmtN, .txclr)
  else if x.op = 0x21#8 then some (.fmtI, .pushb x.f1)
  else if x.op = 0x22#8 then some (.fmtL, .ldb x.f1 x.w1)
  else if x.op = 0x30#8 then some (.fmtQ, .bldreq x.f1 x.f2 x.w1 x.w2)
  else if x.op = 0x31#8 then some (.fmtF, .bldrsp x.f2)
  else if x.op = 0x32#8 then some (.fmtI, .bldexc x.f1)
  else if x.op = 0x33#8 then some (.fmtN, .final)
  else if x.op = 0x40#8 then some (.fmtW, .predict x.f1)
  else if x.op = 0x41#8 then some (.fmtS, .decreq x.f1)
  else if x.op = 0x42#8 then some (.fmtN, .decrsp)
  else if x.op = 0x43#8 then some (.fmtW, .chkqty x.f1)
  else if x.op = 0x44#8 then some (.fmtU, .unpack x.f1 x.w1)
  else if x.op = 0x50#8 then some (.fmtX, .rxfix (x.w1 ++ x.w2))
  else if x.op = 0x51#8 then some (.fmtN, .rxund)
  else none

/-- Decode a command word; a malformed word is rejected by name (30_encoding R95 to R98). -/
def decodeCommand (w : BitVec 64) : Except DecodeError Instr :=
  match opcodeMap (fieldsOf w) with
  | none => .error .reservedOpcode
  | some (fmt, i) =>
    if (fieldsOf w).z ≠ 0#8 ∨ unusedZero fmt (fieldsOf w) = false then .error .reservedField
    else if i.wellFormed = true then .ok i
    else .error .reservedOperand

/-- Decode an event word `{kind[1:0], data[7:0]}` (30_encoding R101). The table's mask 0x300 tests the kind alone, so
the data bits of kinds 1 to 3, which the transport sends as 0, are not looked at. DESIGN CHOICE (log entry 6). -/
def decodeTransport (w : BitVec 10) : Instr :=
  if w.extractLsb' 8 2 = 0#2 then .evByte (w.extractLsb' 0 8)
  else if w.extractLsb' 8 2 = 1#2 then .evClosed
  else if w.extractLsb' 8 2 = 2#2 then .evFail
  else .evIntr

/-- Decode a wire function byte: bit 7 first, then the ten codes of 30_encoding R83. A byte outside the enumeration
has no row of its own and is the plain byte event. DESIGN CHOICE (log entry 4). -/
def decodeFunctionByte (b : Byte) : Instr :=
  if b.extractLsb' 7 1 = 1#1 then .fcException (b.extractLsb' 0 7)
  else if b = 0x01#8 then .fc01
  else if b = 0x02#8 then .fc02
  else if b = 0x03#8 then .fc03
  else if b = 0x04#8 then .fc04
  else if b = 0x05#8 then .fc05
  else if b = 0x06#8 then .fc06
  else if b = 0x07#8 then .fc07
  else if b = 0x0F#8 then .fc0F
  else if b = 0x10#8 then .fc10
  else if b = 0x11#8 then .fc11
  else .evByte b

/-- Decode what a delivery brings. Only a command word can be malformed. -/
def decode : PortWord → Except DecodeError Instr
  | .command w => decodeCommand w
  | .transport w => .ok (decodeTransport w)
  | .tick => .ok .tick
  | .reset => .ok .reset
  | .functionByte b => .ok (decodeFunctionByte b)

/-- The command word of the fields given, `z` zero (30_encoding R95). -/
def commandWord (op f1 f2 : Byte) (w1 w2 : Half) : PortWord :=
  .command (wordOf ⟨op, f1, f2, w1, w2, 0#8⟩)

/-- The event word `{kind, data}` (30_encoding R101). -/
def eventWord (kind : BitVec 2) (data : Byte) : PortWord :=
  .transport (kind ++ data)

/-- The more significant half of a 32-bit operand (30_encoding R95). -/
def operandHi (v : Word) : Half := v.extractLsb' 16 16

/-- The less significant half of a 32-bit operand (30_encoding R95). -/
def operandLo (v : Word) : Half := v.extractLsb' 0 16

/-- Encode an instruction, from the same tables (30_encoding R83, R88, R95 to R97, R101, R102). -/
def encode : Instr → PortWord
  | .nop => commandWord 0x00#8 0#8 0#8 0#16 0#16
  | .cfgw reg value => commandWord 0x01#8 reg 0#8 (operandHi value) (operandLo value)
  | .cfgr reg => commandWord 0x02#8 reg 0#8 0#16 0#16
  | .crc16 b len => commandWord 0x10#8 b 0#8 len 0#16
  | .crcv b len => commandWord 0x11#8 b 0#8 len 0#16
  | .txclr => commandWord 0x20#8 0#8 0#8 0#16 0#16
  | .pushb byte => commandWord 0x21#8 byte 0#8 0#16 0#16
  | .ldb b idx => commandWord 0x22#8 b 0#8 idx 0#16
  | .bldreq slave function addr count => commandWord 0x30#8 slave function addr count
  | .bldrsp function => commandWord 0x31#8 0#8 function 0#16 0#16
  | .bldexc code => commandWord 0x32#8 code 0#8 0#16 0#16
  | .final => commandWord 0x33#8 0#8 0#8 0#16 0#16
  | .predict w => commandWord 0x40#8 w 0#8 0#16 0#16
  | .decreq b => commandWord 0x41#8 b 0#8 0#16 0#16
  | .decrsp => commandWord 0x42#8 0#8 0#8 0#16 0#16
  | .chkqty w => commandWord 0x43#8 w 0#8 0#16 0#16
  | .unpack w idx => commandWord 0x44#8 w 0#8 idx 0#16
  | .rxfix expected => commandWord 0x50#8 0#8 0#8 (operandHi expected) (operandLo expected)
  | .rxund => commandWord 0x51#8 0#8 0#8 0#16 0#16
  | .evByte data => eventWord 0#2 data
  | .evClosed => eventWord 1#2 0#8
  | .evFail => eventWord 2#2 0#8
  | .evIntr => eventWord 3#2 0#8
  | .tick => .tick
  | .reset => .reset
  | .fc01 => .functionByte 0x01#8
  | .fc02 => .functionByte 0x02#8
  | .fc03 => .functionByte 0x03#8
  | .fc04 => .functionByte 0x04#8
  | .fc05 => .functionByte 0x05#8
  | .fc06 => .functionByte 0x06#8
  | .fc07 => .functionByte 0x07#8
  | .fc0F => .functionByte 0x0F#8
  | .fc10 => .functionByte 0x10#8
  | .fc11 => .functionByte 0x11#8
  | .fcException f => .functionByte (1#1 ++ f)

/-- The port word of the opcode table's bits: 64 bits are a command word, 10 bits (16 in whole bytes) an event word,
8 bits a wire function byte, 1 bit the TICK strobe. The number 1 in 8 bits is the word of three rows of the table,
TICK, RESET and FC.01, which are three different ports of the block; it is read as TICK. DESIGN CHOICE (log entry
8). -/
def tablePortWord (nbits w : Nat) : Option PortWord :=
  if nbits = 64 then (if w < 2 ^ 64 then some (.command (BitVec.ofNat 64 w)) else none)
  else if nbits = 16 ∨ nbits = 10 then (if w < 2 ^ 10 then some (.transport (BitVec.ofNat 10 w)) else none)
  else if nbits = 8 ∨ nbits = 1 then
    (if w = 1 then some .tick
     else if nbits = 8 ∧ w < 2 ^ 8 ∧ decodeFunctionByte (BitVec.ofNat 8 w) ≠ .evByte (BitVec.ofNat 8 w) then
       some (.functionByte (BitVec.ofNat 8 w))
     else none)
  else none

/-- The instruction the decoder reads from the opcode table's bits. -/
def decodeTableWord (nbits w : Nat) : Option Instr :=
  match tablePortWord nbits w with
  | none => none
  | some p => (decode p).toOption

end Sys2Proof
end

