-- ==== Sys2Proof/Machine/State.lean ====
section
/-!
DEFINITION. The state of the block: every row of the table of 10_state R20, and two fields of the model's own, the
environment's deliveries not yet taken and what follows them. Status codes (30_encoding R103), receiver states (10_state
R34), the state after reset (10_state R39), and the reasons a step stops.
-/

namespace Sys2Proof.Machine

/-- The status codes of 30_encoding R103, used in `sta` and `rx_result`. Codes 13 and 14 are never written and have
no constructor (93_implementation_defined, item 4). -/
inductive Status where
  | ok
  | timeout
  | transportClosed
  | transportFailure
  | invalidCrc
  | invalidData
  | unsupportedWidth
  | remoteException
  | undefinedLength
  | illegalCmd
  | busy
  | sequence
  | range
  /-- `NONE`, 15: no receive outcome yet. -/
  | noOutcome
  deriving DecidableEq, Repr

/-- The receiver states of 10_state R34. Codes 5 to 7 are never held and have no constructor. -/
inductive RxState where
  | idle
  | awaitFunction
  | awaitRemainder
  | complete
  | faulted
  deriving DecidableEq, Repr

/-- `rx_kind` (10_state R24): fixed-length mode (0) or undefined-length mode (1). -/
inductive RxKind where
  | fixed
  | undefinedLength
  deriving DecidableEq, Repr

/-- What the environment delivers once the listed deliveries are spent: a list of deliveries again and again without
end (with the empty list nothing more), or an order left free, from its `n`-th event on (00_scope R5, 70_reset_and_hazards
R297; log entry 1). -/
inductive Later where
  | again (items : List PortWord)
  | free (n : Nat)
  deriving DecidableEq, Repr

/-- The state of the block (10_state R20). -/
structure State where
  /-- Result registers `r[0]` to `r[7]` (R22). -/
  r0 : Word
  r1 : Word
  r2 : Word
  r3 : Word
  r4 : Word
  r5 : Word
  r6 : Word
  r7 : Word
  /-- Status of the last command (R23). -/
  sta : Status
  /-- Transport Mode (R25). -/
  mode : Mode
  /-- First-byte time-out of undefined-length mode, ticks (R26). -/
  tFirst : Word
  /-- End-of-frame idle time-out, ticks (R27). -/
  tEof : Word
  /-- Response time-out of fixed-length mode, ticks (R28). -/
  tResp : Word
  /-- Transaction id counter (R31). -/
  tid : Half
  /-- Outbound buffer: the bytes that have a value, indices strictly rising (R32). -/
  txb : List Host.Cell
  /-- Number of valid bytes in TXB (R32). -/
  txLen : Len
  /-- The frame in TXB has been finalised (R24). -/
  txFinal : Bool
  /-- Inbound buffer: the bytes that have a value, indices strictly rising (R33). -/
  rxb : List Host.Cell
  /-- Number of bytes accumulated in RXB (R33). -/
  rxLen : Len
  /-- Receiver state (R34). -/
  rxState : RxState
  /-- Outcome of the last receive (R35). -/
  rxResult : Status
  /-- Fixed-length or undefined-length mode (R24). -/
  rxKind : RxKind
  /-- The total expected length is known (R24). -/
  rxKnown : Bool
  /-- Bytes still to read in the current segment (R36). -/
  rxNeed : Len
  /-- Total expected frame length computed so far (R36). -/
  rxTotal : Len
  /-- Down-counter of the current wait, ticks (R37). -/
  rxTimer : Word
  /-- The value the current wait was armed with (R37). -/
  rxReload : Word
  /-- THE MODEL'S OWN FIELD, not the spec's (log entry 1): what the environment delivers, in the order it chose, oldest
  first, not yet taken by the block. -/
  inbox : List PortWord
  /-- THE MODEL'S OWN FIELD, not the spec's (log entry 1): what the environment delivers after those. -/
  later : Later
  deriving DecidableEq, Repr

/-- The state after reset (10_state R39, 70_reset_and_hazards R280). The two open parameters are opaque constants
(log entry 2); the environment delivers nothing (log entry 1). -/
def State.reset : State where
  r0 := 0#32
  r1 := 0#32
  r2 := 0#32
  r3 := 0#32
  r4 := 0#32
  r5 := 0#32
  r6 := 0#32
  r7 := 0#32
  sta := .ok
  mode := .rtu
  tFirst := Config.tFirstReset
  tEof := Config.tEofReset
  tResp := Config.tRespReset
  tid := Config.tidReset
  txb := []
  txLen := 0#9
  txFinal := false
  rxb := []
  rxLen := 0#9
  rxState := .idle
  rxResult := .noOutcome
  rxKind := .fixed
  rxKnown := false
  rxNeed := 0#9
  rxTotal := 0#9
  rxTimer := 0#32
  rxReload := 0#32
  inbox := []
  later := .again []

/-- The reasons the model stops with a fault. The block itself has no trap (60_exceptions R250): both are raised only
in states that no run from reset reaches, so both are safe. -/
inductive Fault where
  /-- A rule reads a buffer byte that no rule wrote, to which the spec gives no value (10_state R32, R33). Raised by
  `withRead` (Machine/Operands.lean), through which every meaning reads a buffer. Safe: no run reaches it (log entry 3). -/
  | unvaluedByte
  /-- A byte event would write at index 260 or above, which does not exist (20_memory R60, R73). Raised by `takeByte`
  (Machine/Receiver.lean). Safe: no run reaches it (log entry 3). -/
  | outsideBuffer
  deriving DecidableEq, Repr

/-- The reasons the model has no step. -/
inductive Refusal where
  /-- An instruction without a meaning in `exec`. No arm uses it. Safe. -/
  | notModelled (mnemonic : String)
  /-- A transport event outside the receiving states: the spec says there is no step (43_receiver R195). Raised by the
  meanings of the transport events and of the wire function codes; `step` never takes such an item. Safe (log entry 5). -/
  | eventNotEnabled
  /-- Nothing the environment delivered is enabled: the block takes no step and the environment waits (10_state R21,
  93_implementation_defined item 11). Raised by `step`. Safe (log entry 1). -/
  | noEnabledEvent
  deriving DecidableEq, Repr

/-- What one step answers. -/
abbrev Result := Host.Outcome State Fault Refusal

end Sys2Proof.Machine
end

