-- ==== Sys2Proof/Machine/Ops.lean ====
section
/-!
DEFINITION. The named operations over the buffers and registers (20_memory), the command refusal and the receiver's
fault, which stand where another machine has its exception (60_exceptions R250), and taking the next delivery of the
environment (43_receiver R195).
-/

namespace Sys2Proof.Machine

-- The frame buffers as canonical lists of cells (20_memory R60 to R63).

/-- The byte an index holds; an unlisted index has no value (10_state R32, R33). -/
def Memory.read : List Host.Cell → Nat → Option Byte
  | [], _ => none
  | (a, x) :: m, i => if a = i then some x else Memory.read m i

/-- Write one byte, keeping the indices strictly rising. -/
def Memory.write : List Host.Cell → Nat → Byte → List Host.Cell
  | [], i, v => [(i, v)]
  | (a, x) :: m, i, v =>
    if i < a then (i, v) :: (a, x) :: m
    else if i = a then (i, v) :: m
    else (a, x) :: Memory.write m i v

/-- The buffer that holds the bytes given from index `i` on and no other byte. -/
def Memory.ofBytesAt : Nat → List Byte → List Host.Cell
  | _, [] => []
  | i, b :: bs => (i, b) :: Memory.ofBytesAt (i + 1) bs

/-- The buffer that holds exactly the bytes given, index 0 first on the wire (20_memory R61). -/
def Memory.ofBytes (bs : List Byte) : List Host.Cell := Memory.ofBytesAt 0 bs

/-- The `n` bytes from index `i` on, if each has a value: `B[i:i+n)` (00_scope R9). -/
def Memory.readRange (m : List Host.Cell) : Nat → Nat → Option (List Byte)
  | _, 0 => some []
  | i, n + 1 =>
    match Memory.read m i, Memory.readRange m (i + 1) n with
    | some b, some bs => some (b :: bs)
    | _, _ => none

/-- The indices rise strictly and each is at least `lo`. -/
def Memory.risingFrom : Nat → List Host.Cell → Bool
  | _, [] => true
  | lo, (a, _) :: m => decide (lo ≤ a) && Memory.risingFrom (a + 1) m

/-- The canonical form of a frame buffer: indices strictly rising, each inside the buffer's 260 bytes. -/
def Memory.wf (m : List Host.Cell) : Bool :=
  Memory.risingFrom 0 m && m.all (fun c => decide (c.1 < Config.bufSize))

-- Registers.

/-- The receiver is assembling a frame: `rx_state ∈ {AWAIT_FUNCTION, AWAIT_REMAINDER}` (10_state R34). -/
def State.receiving (s : State) : Bool :=
  match s.rxState with
  | .awaitFunction => true
  | .awaitRemainder => true
  | .idle => false
  | .complete => false
  | .faulted => false

/-- A length as a 9-bit register holds it. Every length a rule stores is at most 268 (10_state R36), so nothing is
lost. -/
def toLen (n : Nat) : Len := BitVec.ofNat 9 n

/-- `HDR(mode)`, called `h` in the rules. -/
def State.h (s : State) : Nat := Config.hdr s.mode

/-- `CK(mode)`. -/
def State.ck (s : State) : Nat := Config.ck s.mode

/-- `MAXADU(mode)`. -/
def State.maxAdu (s : State) : Nat := Config.maxAdu s.mode

/-- Every command writes `sta` exactly once, last (00_scope R12, 10_state R23). -/
def State.done (s : State) (c : Status) : State := { s with sta := c }

/-- Write `r[0]` (00_scope R10). -/
def State.setR0 (s : State) (v : Word) : State := { s with r0 := v }

/-- A command ends with status `c` (00_scope R12). -/
def finishCommand (c : Status) (s : State) : Result := .next (s.done c)

/-- `refuse c`: `sta` gets the code, no other state changes, the command ends (00_scope R10). This is the block's
synchronous exception (60_exceptions R250). -/
def refuse (c : Status) (s : State) : Result := .next (s.done c)

/-- `fault(C)`: the receiver's terminal error transition (43_receiver R209). It writes neither `sta` nor `r[]`. After
INVALID_CRC the accumulated bytes are discarded and have no value (10_state R33). -/
def State.rxFault (s : State) (c : Status) : State :=
  if c = .invalidCrc then
    { s with rxState := .faulted, rxResult := c, rxTimer := 0#32, rxLen := 0#9, rxb := [] }
  else
    { s with rxState := .faulted, rxResult := c, rxTimer := 0#32 }

-- Taking what the environment delivered.

/-- A word of the transport's, taken only while receiving (43_receiver R195). -/
def isTransport (p : PortWord) : Bool := decide (p.port = .transport)

/-- The first delivery that is enabled, and the rest in order: host commands, TICK and RESET always are, transport
items only while receiving; items that are not enabled stay where they are (43_receiver R195, R207; log entry 1). -/
def nextDelivery (receiving : Bool) : List PortWord → Option (PortWord × List PortWord)
  | [] => none
  | p :: ps =>
    if receiving || !isTransport p then some (p, ps)
    else
      match nextDelivery receiving ps with
      | none => none
      | some (q, rest) => some (q, p :: rest)

/-- The next event, and the state with it taken: the first enabled delivery of the inbox; where it has none, of what
the environment delivers later. An order left free has an event only where its next one is enabled (00_scope R5,
43_receiver R195, 70_reset_and_hazards R297; log entry 1). -/
def State.nextEvent (s : State) : Option (PortWord × State) :=
  match nextDelivery s.receiving s.inbox with
  | some (p, rest) => some (p, { s with inbox := rest })
  | none =>
    match s.later with
    | .again items =>
      match nextDelivery s.receiving items with
      | some (p, rest) => some (p, { s with inbox := s.inbox ++ rest })
      | none => none
    | .free n =>
      if s.receiving || !isTransport (Config.freeEvent n) then
        some (Config.freeEvent n, { s with later := .free (n + 1) })
      else none

end Sys2Proof.Machine
end

