-- ==== Sys2Proof/Machine/Operands.lean ====
section
/-!
DEFINITION. The operand forms: buffer select, width code, configuration register (30_encoding R92, R96, 10_state
R29); and the positions and lengths inside a frame: function class (R83), extra header and trailing payload (R90, R91),
bytes per value (R92), body length (20_memory R64), big-endian fields (20_memory R65).
-/

namespace Sys2Proof.Machine

/-- The two frame buffers (20_memory R60). -/
inductive Buffer where
  | txb
  | rxb
  deriving DecidableEq, Repr

/-- The data widths (30_encoding R92). -/
inductive Width where
  | i8
  | u8
  | i16
  | u16
  | i32
  | u32
  | i64
  | u64
  | f32
  | f64
  deriving DecidableEq, Repr

/-- The writable configuration registers (10_state R29). -/
inductive CfgReg where
  | mode (m : Mode)
  | tFirst
  | tEof
  | tResp
  deriving DecidableEq, Repr

/-- The function classes (30_encoding R83). -/
inductive FClass where
  | rdBits
  | rdRegs
  | wrSingle
  | wrMulti
  | excStatus
  | slaveId
  | exception
  | unknown
  deriving DecidableEq, Repr

/-- Buffer select: 0 = TXB, 1 = RXB, others reserved (30_encoding R96, R98). -/
def bufferOf (b : Byte) : Option Buffer :=
  if b = 0#8 then some .txb else if b = 1#8 then some .rxb else none

/-- Width code, 0 to 9, others reserved (30_encoding R92). -/
def widthOf (w : Byte) : Option Width :=
  if w = 0#8 then some .i8
  else if w = 1#8 then some .u8
  else if w = 2#8 then some .i16
  else if w = 3#8 then some .u16
  else if w = 4#8 then some .i32
  else if w = 5#8 then some .u32
  else if w = 6#8 then some .i64
  else if w = 7#8 then some .u64
  else if w = 8#8 then some .f32
  else if w = 9#8 then some .f64
  else none

/-- The register a CFGW reaches: indices 0 to 3, and MODE only with the value 0 or 1 (44_buffer_config R231). -/
def cfgRegOf (reg : Byte) (value : Word) : Option CfgReg :=
  if reg = 0#8 then
    (if value = 0#32 then some (.mode .rtu) else if value = 1#32 then some (.mode .tcp) else none)
  else if reg = 1#8 then some .tFirst
  else if reg = 2#8 then some .tEof
  else if reg = 3#8 then some .tResp
  else none

/-- `FCLASS(f)`: bit 7 is tested first (30_encoding R83). -/
def fclass (f : Byte) : FClass :=
  if f.extractLsb' 7 1 = 1#1 then .exception
  else if f = 0x01#8 ∨ f = 0x02#8 then .rdBits
  else if f = 0x03#8 ∨ f = 0x04#8 then .rdRegs
  else if f = 0x05#8 ∨ f = 0x06#8 then .wrSingle
  else if f = 0x07#8 then .excStatus
  else if f = 0x0F#8 ∨ f = 0x10#8 then .wrMulti
  else if f = 0x11#8 then .slaveId
  else .unknown

/-- `XHDR` by class (30_encoding R90). -/
def xhdr : FClass → Nat
  | .rdBits => 4
  | .rdRegs => 4
  | .wrSingle => 4
  | .wrMulti => 5
  | .slaveId => 1
  | .exception => 1
  | .excStatus => 0
  | .unknown => 0

/-- `BPV(w)`, bytes per value (30_encoding R92). -/
def bpv : Width → Nat
  | .i8 => 1
  | .u8 => 1
  | .i16 => 2
  | .u16 => 2
  | .i32 => 4
  | .u32 => 4
  | .i64 => 8
  | .u64 => 8
  | .f32 => 4
  | .f64 => 8

/-- Widths CHKQTY and UNPACK decode (30_encoding R92). -/
def Width.supported : Width → Bool
  | .i8 => true
  | .u8 => true
  | .i16 => true
  | .u16 => true
  | .i32 => true
  | .u32 => true
  | .i64 => false
  | .u64 => false
  | .f32 => false
  | .f64 => false

/-- Widths whose values are sign-extended to 32 bits (42_predict_decode R167). -/
def Width.signed : Width → Bool
  | .i8 => true
  | .u8 => false
  | .i16 => true
  | .u16 => false
  | .i32 => false
  | .u32 => false
  | .i64 => false
  | .u64 => false
  | .f32 => false
  | .f64 => false

/-- `ceil(a/b)` (00_scope R9). -/
def ceilDiv (a b : Nat) : Nat := (a + b - 1) / b

/-- The bytes of a buffer. -/
def State.buf (s : State) : Buffer → List Host.Cell
  | .txb => s.txb
  | .rxb => s.rxb

/-- `VLEN(B)` (20_memory R63). -/
def State.vlen (s : State) : Buffer → Nat
  | .txb => s.txLen.toNat
  | .rxb => s.rxLen.toNat

/-- `BL(b)`, the frame's length without its checksum (20_memory R64); the difference is 0 where RXB is shorter than a
checksum. -/
def State.bodyLen (s : State) : Buffer → Nat
  | .rxb => s.rxLen.toNat - s.ck
  | .txb => if s.txFinal = true then s.txLen.toNat - s.ck else s.txLen.toNat

/-- `MemRead(B, i, 1)`, defined only for `i < VLEN(B)` (20_memory R62). -/
def State.byteAt (s : State) (b : Buffer) (i : Nat) : Option Byte :=
  if i < s.vlen b then Memory.read (s.buf b) i else none

/-- `B[i:i+n)` (00_scope R9), defined only inside the valid bytes (20_memory R62, R63). -/
def State.bytesAt (s : State) (b : Buffer) (i n : Nat) : Option (List Byte) :=
  if i + n ≤ s.vlen b then Memory.readRange (s.buf b) i n else none

/-- `be16(B, i) = {B[i], B[i+1]}` (00_scope R9). -/
def State.be16At (s : State) (b : Buffer) (i : Nat) : Option Half :=
  match s.byteAt b i, s.byteAt b (i + 1) with
  | some hi, some lo => some (hi ++ lo)
  | _, _ => none

/-- Go on with what was read; a byte without a value stops the machine (log entry 3). -/
def withRead {α : Type} (o : Option α) (k : α → Result) : Result :=
  match o with
  | some a => k a
  | none => .fault .unvaluedByte

/-- `XPAY(f, B)` of the frame in RXB (30_encoding R91). -/
def State.xpay (s : State) (c : FClass) : Option Nat :=
  match c with
  | .wrMulti => (s.byteAt .rxb (s.h + 5)).map BitVec.toNat
  | .slaveId => (s.byteAt .rxb (s.h + 1)).map BitVec.toNat
  | .rdBits => some 0
  | .rdRegs => some 0
  | .wrSingle => some 0
  | .excStatus => some 0
  | .exception => some 0
  | .unknown => some 0

/-- The high byte of a 16-bit field, which goes first on the wire (20_memory R65). -/
def hiByte (v : Half) : Byte := v.extractLsb' 8 8

/-- The low byte of a 16-bit field. -/
def loByte (v : Half) : Byte := v.extractLsb' 0 8

/-- `{b[0], b[1], ...}`, big-endian assembly of bytes into a natural number (20_memory R65, 42_predict_decode R167). -/
def assemble (bs : List Byte) : Nat := bs.foldl (fun acc b => acc * 256 + b.toNat) 0

/-- A value of `bits` bits as a 32-bit pattern: sign-extended or zero-extended (00_scope R10, 42_predict_decode
R167). -/
def extend32 (signed : Bool) (bits v : Nat) : Word :=
  if signed = true then (BitVec.ofNat bits v).signExtend 32 else BitVec.ofNat 32 v

end Sys2Proof.Machine
end

