-- ==== Sys2Proof/Machine/Flags.lean ====
section
/-!
DEFINITION. The computations of codes and flag bits: the numbers of the status codes (30_encoding R103) and receiver
states (10_state R34), the status map CFGR reads (10_state R29), the match mask of DECRSP (42_predict_decode R164).
-/

namespace Sys2Proof.Machine

/-- The number of a status code (30_encoding R103). -/
def Status.code : Status → BitVec 4
  | .ok => 0#4
  | .timeout => 1#4
  | .transportClosed => 2#4
  | .transportFailure => 3#4
  | .invalidCrc => 4#4
  | .invalidData => 5#4
  | .unsupportedWidth => 6#4
  | .remoteException => 7#4
  | .undefinedLength => 8#4
  | .illegalCmd => 9#4
  | .busy => 10#4
  | .sequence => 11#4
  | .range => 12#4
  | .noOutcome => 15#4

/-- The number of a receiver state (10_state R34). -/
def RxState.code : RxState → BitVec 3
  | .idle => 0#3
  | .awaitFunction => 1#3
  | .awaitRemainder => 2#3
  | .complete => 3#3
  | .faulted => 4#3

/-- The bit of a Transport Mode (10_state R25). -/
def modeBit : Mode → BitVec 1
  | .rtu => 0#1
  | .tcp => 1#1

/-- The bit of `rx_kind` (10_state R24). -/
def kindBit : RxKind → BitVec 1
  | .fixed => 0#1
  | .undefinedLength => 1#1

/-- `RX_FLAGS`: bit 0 `rx_kind`, bit 1 `rx_known` (10_state R29). -/
def rxFlags (kind : RxKind) (known : Bool) : BitVec 2 := BitVec.ofBool known ++ kindBit kind

/-- The configuration and status map, zero-extended to 32 bits; an unassigned index has no register (10_state R29). -/
def State.statusRegister (s : State) (reg : Byte) : Option Word :=
  if reg = 0#8 then some ((modeBit s.mode).setWidth 32)
  else if reg = 1#8 then some s.tFirst
  else if reg = 2#8 then some s.tEof
  else if reg = 3#8 then some s.tResp
  else if reg = 8#8 then some (s.rxState.code.setWidth 32)
  else if reg = 9#8 then some (s.rxResult.code.setWidth 32)
  else if reg = 10#8 then some (s.rxLen.setWidth 32)
  else if reg = 11#8 then some (s.rxTotal.setWidth 32)
  else if reg = 12#8 then some (s.rxNeed.setWidth 32)
  else if reg = 13#8 then some s.rxTimer
  else if reg = 14#8 then some (s.txLen.setWidth 32)
  else if reg = 15#8 then some ((BitVec.ofBool s.txFinal).setWidth 32)
  else if reg = 16#8 then some (s.tid.setWidth 32)
  else if reg = 17#8 then some ((rxFlags s.rxKind s.rxKnown).setWidth 32)
  else none

/-- `{fn_match, tid_match, id_match}` in bits 2, 1, 0 (42_predict_decode R164). -/
def matchMask (fn tid id : Bool) : Word :=
  (BitVec.ofBool fn ++ BitVec.ofBool tid ++ BitVec.ofBool id : BitVec 3).setWidth 32

/-- Bit 7 of a function byte: the frame is exception-shaped (30_encoding R88). -/
def exceptionBit (f : Byte) : Bool := decide (f.extractLsb' 7 1 = 1#1)

end Sys2Proof.Machine
end

