-- ==== Sys2Proof/Machine/BufferConfig.lean ====
section
/-!
DEFINITION. The buffer and configuration commands NOP, CFGW, CFGR, TXCLR, PUSHB, LDB (44_buffer_config).
-/

namespace Sys2Proof.Machine

/-- NOP (44_buffer_config R230). -/
def execNop (s : State) : Result := finishCommand .ok s

/-- A write of MODE fixes the mode and discards both frames (44_buffer_config R231, 10_state R25). -/
def State.setMode (s : State) (m : Mode) : State :=
  { s with
    mode := m
    txLen := 0#9
    txFinal := false
    txb := []
    rxState := .idle
    rxResult := .noOutcome
    rxLen := 0#9
    rxb := []
    rxNeed := 0#9
    rxTotal := 0#9
    rxKnown := false
    rxKind := .fixed
    rxTimer := 0#32
    rxReload := 0#32 }

/-- The effect of CFGW on the register it reaches (44_buffer_config R231). -/
def State.configure (s : State) (value : Word) : CfgReg → State
  | .mode m => s.setMode m
  | .tFirst => { s with tFirst := value }
  | .tEof => { s with tEof := value }
  | .tResp => { s with tResp := value }

/-- CFGW `reg, value` (44_buffer_config R231): the register and value checks come before BUSY (60_exceptions R256). -/
def execCfgw (reg : Byte) (value : Word) (s : State) : Result :=
  match cfgRegOf reg value with
  | none => refuse .illegalCmd s
  | some target =>
    if s.receiving = true then refuse .busy s
    else finishCommand .ok (s.configure value target)

/-- CFGR `reg` (44_buffer_config R232). -/
def execCfgr (reg : Byte) (s : State) : Result :=
  match s.statusRegister reg with
  | none => refuse .illegalCmd s
  | some v => finishCommand .ok (s.setR0 v)

/-- TXCLR (44_buffer_config R233): the bytes of TXB keep no value. -/
def execTxclr (s : State) : Result :=
  finishCommand .ok { s with txLen := 0#9, txFinal := false, txb := [] }

/-- PUSHB `byte` (44_buffer_config R234). -/
def execPushb (byte : Byte) (s : State) : Result :=
  if s.txFinal = true then refuse .sequence s
  else if s.maxAdu - s.ck ≤ s.txLen.toNat then refuse .range s
  else
    finishCommand .ok
      { s with
        txb := Memory.write s.txb s.txLen.toNat byte
        txLen := toLen (s.txLen.toNat + 1)
        r0 := BitVec.ofNat 32 (s.txLen.toNat + 1) }

/-- LDB `b, idx` (44_buffer_config R235). -/
def execLdb (b : Byte) (idx : Half) (s : State) : Result :=
  match bufferOf b with
  | none => refuse .illegalCmd s
  | some buf =>
    if buf = .rxb ∧ s.receiving = true then refuse .busy s
    else if s.vlen buf ≤ idx.toNat then refuse .range s
    else
      withRead (s.byteAt buf idx.toNat) fun v =>
        finishCommand .ok (s.setR0 (v.setWidth 32))

end Sys2Proof.Machine
end

