-- ==== Sys2Proof/Machine/FrameEncode.lean ====
section
/-!
DEFINITION. The Frame Codec, encoding side: BLDREQ, BLDRSP, BLDEXC, FINAL (41_frame_encode).
-/

namespace Sys2Proof.Machine

/-- A 16-bit field as its two bytes on the wire, high byte first (20_memory R65). -/
def beBytes (v : Half) : List Byte := [hiByte v, loByte v]

/-- A build command leaves exactly the bytes given in TXB, not finalised, and their number in `r[0]` (41_frame_encode
R140, R141, R143, R144). -/
def State.build (s : State) (frame : List Byte) : State :=
  { s with
    txb := Memory.ofBytes frame
    txLen := toLen frame.length
    txFinal := false
    r0 := BitVec.ofNat 32 frame.length }

/-- The six bytes before the unit id of a TCP frame under construction: transaction id, protocol id 0, length
placeholder 0 (41_frame_encode R141, R143). -/
def mbapStart (idHi idLo : Byte) : List Byte := [idHi, idLo, 0#8, 0#8, 0#8, 0#8]

/-- The request from the slave address or unit id on: bare for EXC_STATUS and SLAVE_ID, else with address and count
(30_encoding R84, R86). -/
def requestBody (c : FClass) (slave function : Byte) (addr count : Half) : List Byte :=
  if c = .excStatus ∨ c = .slaveId then [slave, function]
  else [slave, function] ++ beBytes addr ++ beBytes count

/-- The transaction id a BLDREQ emits: incremented first, modulo 65536, in TCP mode (10_state R31, 41_frame_encode
R141). -/
def State.nextTid (s : State) : Half :=
  match s.mode with
  | .rtu => s.tid
  | .tcp => s.tid + 1#16

/-- The request frame of BLDREQ (41_frame_encode R141). -/
def State.requestFrame (s : State) (slave function : Byte) (addr count : Half) : List Byte :=
  match s.mode with
  | .rtu => requestBody (fclass function) slave function addr count
  | .tcp =>
    mbapStart (hiByte s.nextTid) (loByte s.nextTid) ++ requestBody (fclass function) slave function addr count

/-- BLDREQ `slave, function, addr, count` (41_frame_encode R141). -/
def execBldreq (slave function : Byte) (addr count : Half) (s : State) : Result :=
  if fclass function = .exception ∨ fclass function = .unknown then refuse .invalidData s
  else
    finishCommand .ok { s.build (s.requestFrame slave function addr count) with tid := s.nextTid }

/-- `rsp_header(f)`: the response's header and function byte, with the identity of the request in RXB
(41_frame_encode R143). -/
def State.responseHeader (s : State) (f : Byte) : Option (List Byte) :=
  match s.mode with
  | .rtu =>
    match s.byteAt .rxb 0 with
    | some slave => some [slave, f]
    | none => none
  | .tcp =>
    match s.byteAt .rxb 0, s.byteAt .rxb 1, s.byteAt .rxb 6 with
    | some idHi, some idLo, some unitId => some (mbapStart idHi idLo ++ [unitId, f])
    | _, _, _ => none

/-- BLDRSP `function` (41_frame_encode R143). -/
def execBldrsp (function : Byte) (s : State) : Result :=
  if s.receiving = true then refuse .busy s
  else if s.rxState ≠ .complete then refuse .sequence s
  else
    withRead (s.responseHeader function) fun frame => finishCommand .ok (s.build frame)

/-- BLDEXC `code` (41_frame_encode R144). -/
def execBldexc (code : Byte) (s : State) : Result :=
  if s.receiving = true then refuse .busy s
  else if s.rxState ≠ .complete then refuse .sequence s
  else
    withRead (s.byteAt .rxb s.h) fun f =>
      withRead (s.responseHeader (f ||| 0x80#8)) fun frame =>
        finishCommand .ok (s.build (frame ++ [code]))

/-- FINAL in RTU mode appends the checksum, high byte first (41_frame_encode R146). -/
def State.appendCrc (s : State) (r : Half) : State :=
  { s with
    txb := Memory.write (Memory.write s.txb s.txLen.toNat (hiByte r)) (s.txLen.toNat + 1) (loByte r)
    txLen := toLen (s.txLen.toNat + 2)
    txFinal := true
    r0 := BitVec.ofNat 32 (s.txLen.toNat + 2) }

/-- FINAL in TCP mode writes the MBAP length field `tx_len - 6`, big-endian (41_frame_encode R146). -/
def State.fillLength (s : State) : State :=
  { s with
    txb :=
      Memory.write
        (Memory.write s.txb 4 (hiByte (BitVec.ofNat 16 (s.txLen.toNat - Config.mbapPrefix))))
        5 (loByte (BitVec.ofNat 16 (s.txLen.toNat - Config.mbapPrefix)))
    txFinal := true
    r0 := BitVec.ofNat 32 s.txLen.toNat }

/-- FINAL (41_frame_encode R146). -/
def execFinal (s : State) : Result :=
  if s.txFinal = true ∨ s.txLen.toNat < s.h + 1 then refuse .sequence s
  else if s.maxAdu < s.txLen.toNat + s.ck then refuse .invalidData s
  else
    match s.mode with
    | .rtu =>
      withRead (s.bytesAt .txb 0 s.txLen.toNat) fun bs => finishCommand .ok (s.appendCrc (crc16 bs))
    | .tcp => finishCommand .ok s.fillLength

end Sys2Proof.Machine
end

