-- ==== Sys2Proof/Machine/PredictDecode.lean ====
section
/-!
DEFINITION. The length predictor and the decoding side of the Frame Codec: PREDICT, DECREQ, DECRSP, CHKQTY, UNPACK
(42_predict_decode).
-/

namespace Sys2Proof.Machine

/-- The class answers a read with a byte-count field (30_encoding R87). -/
def FClass.isRead (c : FClass) : Bool := decide (c = .rdBits ∨ c = .rdRegs)

/-- PREDICT's results: `r[1] = pdu_len`, `r[0] = h + pdu_len + CK` (42_predict_decode R161). -/
def State.predicted (s : State) (pduLen : Nat) : State :=
  { s with r0 := BitVec.ofNat 32 (s.h + pduLen + s.ck), r1 := BitVec.ofNat 32 pduLen }

/-- The byte count a read response to a count of `n` announces: `ceil(n/8)` or `BPV(w) × n` (42_predict_decode R161,
R166; 30_encoding R87). -/
def readByteCount (c : FClass) (w : Width) (n : Nat) : Nat :=
  if c = .rdBits then ceilDiv n 8 else bpv w * n

/-- The response's PDU length for the classes whose length does not depend on the count (42_predict_decode R161). -/
def fixedPduLen (c : FClass) : Nat := if c = .excStatus then 2 else 5

/-- PREDICT `w` (42_predict_decode R161). -/
def execPredict (w : Byte) (s : State) : Result :=
  match widthOf w with
  | none => refuse .illegalCmd s
  | some width =>
    if s.bodyLen .txb < s.h + 1 then refuse .sequence s
    else
      withRead (s.byteAt .txb s.h) fun f =>
        if fclass f = .exception ∨ fclass f = .unknown then refuse .invalidData s
        else if fclass f = .slaveId then refuse .undefinedLength s
        else if (fclass f).isRead = true then
          if s.bodyLen .txb < s.h + 5 then refuse .invalidData s
          else
            withRead (s.be16At .txb (s.h + 3)) fun n =>
              finishCommand .ok (s.predicted (2 + readByteCount (fclass f) width n.toNat))
        else finishCommand .ok (s.predicted (fixedPduLen (fclass f)))

/-- How many bytes from the function byte on DECREQ needs (42_predict_decode R163). -/
def requestNeed : FClass → Nat
  | .wrMulti => 6
  | .rdBits => 5
  | .rdRegs => 5
  | .wrSingle => 5
  | .excStatus => 1
  | .slaveId => 1
  | .exception => 1
  | .unknown => 1

/-- The fields a decode command delivers, `r[0]` to `r[6]`. -/
structure Decoded where
  d0 : Word
  d1 : Word
  d2 : Word
  d3 : Word
  d4 : Word
  d5 : Word
  d6 : Word
  deriving DecidableEq, Repr

/-- Write `r[0]` to `r[6]` (42_predict_decode R163, R164). -/
def State.deliver (s : State) (d : Decoded) : State :=
  { s with r0 := d.d0, r1 := d.d1, r2 := d.d2, r3 := d.d3, r4 := d.d4, r5 := d.d5, r6 := d.d6 }

/-- Transaction id and MBAP length field in TCP mode, 0 and 0 in RTU mode (42_predict_decode R163, R164). -/
def State.mbapFields (s : State) (b : Buffer) : Option (Word × Word) :=
  match s.mode with
  | .rtu => some (0#32, 0#32)
  | .tcp =>
    match s.be16At b 0, s.be16At b 4 with
    | some t, some l => some (t.setWidth 32, l.setWidth 32)
    | _, _ => none

/-- Address and count (or value) where the class has them, else 0 and 0 (42_predict_decode R163). -/
def State.addressFields (s : State) (b : Buffer) (need : Nat) : Option (Word × Word) :=
  if 5 ≤ need then
    match s.be16At b (s.h + 1), s.be16At b (s.h + 3) with
    | some a, some n => some (a.setWidth 32, n.setWidth 32)
    | _, _ => none
  else some (0#32, 0#32)

/-- The byte count of a multi-write request, else 0 (42_predict_decode R163). -/
def State.byteCountField (s : State) (b : Buffer) (need : Nat) : Option Word :=
  if need = 6 then (s.byteAt b (s.h + 5)).map (BitVec.setWidth 32) else some 0#32

/-- The fields of the request in a buffer whose function byte is `f` (42_predict_decode R163). -/
def State.requestFields (s : State) (b : Buffer) (f : Byte) : Option Decoded :=
  match s.byteAt b (s.h - 1), s.addressFields b (requestNeed (fclass f)),
    s.byteCountField b (requestNeed (fclass f)), s.mbapFields b with
  | some slave, some (a, n), some c, some (t, l) =>
    some ⟨slave.setWidth 32, f.setWidth 32, a, n, t, l, c⟩
  | _, _, _, _ => none

/-- DECREQ `b` (42_predict_decode R163). -/
def execDecreq (b : Byte) (s : State) : Result :=
  match bufferOf b with
  | none => refuse .illegalCmd s
  | some buf =>
    if buf = .rxb ∧ s.receiving = true then refuse .busy s
    else if buf = .rxb ∧ s.rxState ≠ .complete then refuse .sequence s
    else if s.bodyLen buf < s.h + 1 then refuse .invalidData s
    else
      withRead (s.byteAt buf s.h) fun f =>
        if s.bodyLen buf < s.h + requestNeed (fclass f) then refuse .invalidData s
        else
          withRead (s.requestFields buf f) fun d => finishCommand .ok (s.deliver d)

/-- `tid_match`: the transaction ids of RXB and TXB agree; always 1 in RTU mode (42_predict_decode R164). -/
def State.tidMatch (s : State) : Option Bool :=
  match s.mode with
  | .rtu => some true
  | .tcp =>
    match s.be16At .rxb 0, s.be16At .txb 0 with
    | some x, some y => some (decide (x = y))
    | _, _ => none

/-- `r[3]` of DECRSP: the byte after the function byte, 0 where the body has none (42_predict_decode R164). -/
def State.firstPayload (s : State) : Option Word :=
  if s.h + 2 ≤ s.bodyLen .rxb then (s.byteAt .rxb (s.h + 1)).map (BitVec.setWidth 32) else some 0#32

/-- The fields of the response in RXB and the comparison with the request in TXB (42_predict_decode R164). -/
def State.responseFields (s : State) : Option Decoded :=
  match s.byteAt .rxb (s.h - 1), s.byteAt .rxb s.h, s.firstPayload, s.mbapFields .rxb with
  | some slave, some f, some p, some (t, l) =>
    match s.byteAt .txb (s.h - 1), s.byteAt .txb s.h, s.tidMatch with
    | some reqSlave, some reqF, some tm =>
      some
        ⟨slave.setWidth 32, f.setWidth 32, (BitVec.ofBool (exceptionBit f)).setWidth 32, p, t, l,
          matchMask (decide (f &&& 0x7F#8 = reqF)) tm (decide (slave = reqSlave))⟩
    | _, _, _ => none
  | _, _, _, _ => none

/-- DECRSP (42_predict_decode R164). -/
def execDecrsp (s : State) : Result :=
  if s.receiving = true then refuse .busy s
  else if s.rxState ≠ .complete ∨ s.bodyLen .txb < s.h + 1 then refuse .sequence s
  else withRead s.responseFields fun d => finishCommand .ok (s.deliver d)

/-- CHKQTY once the request's class is a read and its count is `n` (42_predict_decode R166): UNSUPPORTED_WIDTH is
tested before the byte count. -/
def State.checkCount (s : State) (c : FClass) (w : Width) (n : Half) : Result :=
  if c = .rdRegs ∧ w.supported = false then refuse .unsupportedWidth s
  else if s.bodyLen .rxb < s.h + 2 then refuse .invalidData s
  else
    withRead (s.byteAt .rxb (s.h + 1)) fun bc =>
      if bc.toNat ≠ readByteCount c w n.toNat then refuse .invalidData s
      else finishCommand .ok (s.setR0 (n.setWidth 32))

/-- CHKQTY `w` (42_predict_decode R166). -/
def execChkqty (w : Byte) (s : State) : Result :=
  match widthOf w with
  | none => refuse .illegalCmd s
  | some width =>
    if s.receiving = true then refuse .busy s
    else if s.rxState ≠ .complete ∨ s.bodyLen .txb < s.h + 1 then refuse .sequence s
    else if s.rxResult = .remoteException then
      withRead (s.byteAt .rxb (s.h + 1)) fun code =>
        finishCommand .remoteException (s.setR0 (code.setWidth 32))
    else
      withRead (s.byteAt .txb s.h) fun f =>
        if (fclass f).isRead = false then finishCommand .ok (s.setR0 0#32)
        else if s.bodyLen .txb < s.h + 5 then refuse .invalidData s
        else withRead (s.be16At .txb (s.h + 3)) fun n => s.checkCount (fclass f) width n

/-- UNPACK once the width is a supported one (42_predict_decode R168). -/
def State.unpackValue (s : State) (w : Width) (idx : Nat) : Result :=
  if s.bodyLen .rxb < s.h + 2 then refuse .range s
  else
    withRead (s.byteAt .rxb (s.h + 1)) fun bc =>
      if bc.toNat < bpv w * (idx + 1) ∨ s.bodyLen .rxb < s.h + 2 + bpv w * idx + bpv w then refuse .range s
      else
        withRead (s.bytesAt .rxb (s.h + 2 + bpv w * idx) (bpv w)) fun bs =>
          finishCommand .ok (s.setR0 (extend32 w.signed (8 * bpv w) (assemble bs)))

/-- UNPACK `w, idx` (42_predict_decode R168). -/
def execUnpack (w : Byte) (idx : Half) (s : State) : Result :=
  match widthOf w with
  | none => refuse .illegalCmd s
  | some width =>
    if s.receiving = true then refuse .busy s
    else if s.rxState ≠ .complete ∨ s.rxResult ≠ .ok then refuse .sequence s
    else if width.supported = false then refuse .unsupportedWidth s
    else s.unpackValue width idx.toNat

end Sys2Proof.Machine
end

