-- ==== Sys2Proof/Machine/Receiver.lean ====
section
/-!
DEFINITION. The Frame Receiver (43_receiver): RXFIX, RXUND, the four transport events, TICK, and the procedures
`advance`, `finish`, `timeout` they share (`fault` is `State.rxFault` of Machine/Ops.lean).
-/

namespace Sys2Proof.Machine

/-- RXFIX with an operand out of range: a receive that ends at once (43_receiver R193). -/
def State.rejectLength (s : State) : State :=
  { s with
    rxState := .faulted
    rxResult := .invalidData
    rxLen := 0#9
    rxb := []
    rxNeed := 0#9
    rxTotal := 0#9
    rxKnown := false
    rxKind := .fixed
    rxTimer := 0#32
    rxReload := 0#32 }

/-- Arm a fixed-length receive of `expected` bytes (43_receiver R193). -/
def State.armFixed (s : State) (expected : Nat) : State :=
  { s with
    rxKind := .fixed
    rxLen := 0#9
    rxb := []
    rxTotal := toLen expected
    rxNeed := toLen expected
    rxKnown := true
    rxState := .awaitRemainder
    rxResult := .noOutcome
    rxTimer := s.tResp
    rxReload := s.tResp }

/-- Arm an undefined-length receive: the header and the function byte (43_receiver R194). -/
def State.armUndefined (s : State) : State :=
  { s with
    rxKind := .undefinedLength
    rxLen := 0#9
    rxb := []
    rxTotal := toLen (s.h + 1)
    rxNeed := toLen (s.h + 1)
    rxKnown := false
    rxState := .awaitFunction
    rxResult := .noOutcome
    rxTimer := s.tFirst
    rxReload := s.tFirst }

/-- RXFIX `expected` (43_receiver R193). -/
def execRxfix (expected : Word) (s : State) : Result :=
  if s.receiving = true then refuse .busy s
  else if expected.toNat < Config.excLen s.mode ∨ s.maxAdu < expected.toNat then
    finishCommand .invalidData s.rejectLength
  else finishCommand .ok (s.armFixed expected.toNat)

/-- RXUND (43_receiver R194). -/
def execRxund (s : State) : Result :=
  if s.receiving = true then refuse .busy s
  else finishCommand .ok s.armUndefined

/-- A receive ends with a whole frame (43_receiver R204, R208). -/
def State.completeWith (s : State) (outcome : Status) : State :=
  { s with rxState := .complete, rxResult := outcome, rxTimer := 0#32, rxNeed := 0#9, rxTotal := s.rxLen }

/-- The checksum test of RTU mode; TCP mode has none (43_receiver R204, R208). -/
def State.frameGood (s : State) : Option Bool :=
  match s.mode with
  | .rtu => s.crcOk .rxb s.rxLen.toNat
  | .tcp => some true

/-- `finish()` (43_receiver R204). -/
def State.finish (s : State) : Result :=
  withRead s.frameGood fun good =>
    if good = false then .next (s.rxFault .invalidCrc)
    else
      withRead (s.byteAt .rxb s.h) fun f =>
        .next (s.completeWith (if exceptionBit f = true then .remoteException else .ok))

/-- The second part of `advance()` with `rx_known = 0`: the addressable header is complete and `p` more bytes follow
(43_receiver R203). -/
def State.lengthKnown (s : State) (p : Nat) : Result :=
  if s.maxAdu < s.rxTotal.toNat + p then
    .next (State.rxFault { s with rxTotal := toLen (s.rxTotal.toNat + p) } .invalidData)
  else if 0 < p then
    .next { s with rxTotal := toLen (s.rxTotal.toNat + p), rxNeed := toLen p, rxKnown := true }
  else
    State.finish { s with rxTotal := toLen (s.rxTotal.toNat + p), rxNeed := toLen p, rxKnown := true }

/-- The second part of `advance()` (43_receiver R203). -/
def State.advanceRemainder (s : State) : Result :=
  if s.rxKnown = true then s.finish
  else
    withRead (s.byteAt .rxb s.h) fun f =>
      withRead (s.xpay (fclass f)) fun x => s.lengthKnown (x + s.ck)

/-- `advance()`, run when the current segment is complete (43_receiver R203). -/
def State.advance (s : State) : Result :=
  if s.rxState = .awaitFunction then
    withRead (s.byteAt .rxb s.h) fun f =>
      if 0 < xhdr (fclass f) then
        .next
          { s with
            rxTotal := toLen (s.rxTotal.toNat + xhdr (fclass f))
            rxNeed := toLen (xhdr (fclass f))
            rxState := .awaitRemainder
            rxKnown := false }
      else
        State.advanceRemainder
          { s with
            rxTotal := toLen (s.rxTotal.toNat + xhdr (fclass f))
            rxNeed := toLen (xhdr (fclass f))
            rxState := .awaitRemainder
            rxKnown := false }
  else s.advanceRemainder

/-- Store one byte and re-arm the wait with the end-of-frame idle time-out (43_receiver R202). -/
def State.storeByte (s : State) (d : Byte) : State :=
  { s with
    rxb := Memory.write s.rxb s.rxLen.toNat d
    rxLen := toLen (s.rxLen.toNat + 1)
    rxNeed := toLen (s.rxNeed.toNat - 1)
    rxTimer := s.tEof
    rxReload := s.tEof }

/-- A byte arrives at the receiver (43_receiver R202), enabled only while receiving (R195). -/
def takeByte (d : Byte) (s : State) : Result :=
  if s.receiving = false then .refused .eventNotEnabled
  else if Config.bufSize ≤ s.rxLen.toNat then .fault .outsideBuffer
  else if (s.storeByte d).rxNeed = 0#9 then (s.storeByte d).advance
  else .next (s.storeByte d)

/-- EV.BYTE `d` (43_receiver R202). -/
def execEvByte (d : Byte) (s : State) : Result := takeByte d s

/-- EV.CLOSED (43_receiver R205). -/
def execEvClosed (s : State) : Result :=
  if s.receiving = false then .refused .eventNotEnabled else .next (s.rxFault .transportClosed)

/-- EV.FAIL (43_receiver R206). -/
def execEvFail (s : State) : Result :=
  if s.receiving = false then .refused .eventNotEnabled else .next (s.rxFault .transportFailure)

/-- EV.INTR: the wait is re-armed with the full value it was armed with (43_receiver R210). -/
def execEvIntr (s : State) : Result :=
  if s.receiving = false then .refused .eventNotEnabled else .next { s with rxTimer := s.rxReload }

/-- `timeout()`: the current wait has expired (43_receiver R208). -/
def State.timeout (s : State) : Result :=
  if s.rxKind = .fixed ∧ s.rxLen.toNat = Config.excLen s.mode then
    withRead s.frameGood fun good =>
      if good = false then .next (s.rxFault .invalidCrc)
      else
        withRead (s.byteAt .rxb s.h) fun f =>
          if exceptionBit f = true then .next (s.completeWith .remoteException)
          else .next (s.rxFault .timeout)
  else .next (s.rxFault .timeout)

/-- TICK (43_receiver R207). -/
def execTick (s : State) : Result :=
  if s.receiving = false then .next s
  else if 1 < s.rxTimer.toNat then .next { s with rxTimer := s.rxTimer - 1#32 }
  else s.timeout

/-- RESET: every piece of the block's state takes its reset value; what the environment has not yet delivered is not
the block's and stays (70_reset_and_hazards R280, R281; log entry 10). -/
def execReset (s : State) : Result := .next { State.reset with inbox := s.inbox, later := s.later }

end Sys2Proof.Machine
end

