-- ==== Sys2Proof/Machine/WireCodes.lean ====
section
/-!
DEFINITION. The wire function codes of the opcode table (30_encoding R83, R88). None is a command; each is the
function byte of a frame. The block meets such a byte as it arrives, so each row's meaning is the arrival of that byte
at the receiver (43_receiver R202), where its class decides how many extra header bytes follow (R203, 30_encoding
R90). DESIGN CHOICE (log entry 4).
-/

namespace Sys2Proof.Machine

/-- FC.01, read coils (30_encoding R83): the byte 0x01 arrives. -/
def execFc01 (s : State) : Result := takeByte 0x01#8 s

/-- FC.02, read discrete inputs (30_encoding R83): the byte 0x02 arrives. -/
def execFc02 (s : State) : Result := takeByte 0x02#8 s

/-- FC.03, read holding registers (30_encoding R83): the byte 0x03 arrives. -/
def execFc03 (s : State) : Result := takeByte 0x03#8 s

/-- FC.04, read input registers (30_encoding R83): the byte 0x04 arrives. -/
def execFc04 (s : State) : Result := takeByte 0x04#8 s

/-- FC.05, write single coil (30_encoding R83): the byte 0x05 arrives. -/
def execFc05 (s : State) : Result := takeByte 0x05#8 s

/-- FC.06, write single register (30_encoding R83): the byte 0x06 arrives. -/
def execFc06 (s : State) : Result := takeByte 0x06#8 s

/-- FC.07, read exception status (30_encoding R83): the byte 0x07 arrives. -/
def execFc07 (s : State) : Result := takeByte 0x07#8 s

/-- FC.0F, write multiple coils (30_encoding R83): the byte 0x0F arrives. -/
def execFc0F (s : State) : Result := takeByte 0x0F#8 s

/-- FC.10, write multiple registers (30_encoding R83): the byte 0x10 arrives. -/
def execFc10 (s : State) : Result := takeByte 0x10#8 s

/-- FC.11, report slave id (30_encoding R83): the byte 0x11 arrives. -/
def execFc11 (s : State) : Result := takeByte 0x11#8 s

/-- FC.EXCEPTION, the exception variant of function `f` (30_encoding R83, R88): the byte `f | 0x80` arrives. -/
def execFcException (f : BitVec 7) (s : State) : Result := takeByte (1#1 ++ f) s

end Sys2Proof.Machine
end

