-- ==== Sys2Proof/Machine/Dispatch.lean ====
section
/-!
DEFINITION. Which meaning each instruction has: one arm per constructor of Instr.
-/

namespace Sys2Proof.Machine

def exec (i : Instr) (s : State) : Host.Outcome State Fault Refusal :=
  match i with
  | .nop => Sys2Proof.Machine.execNop s
  | .cfgw reg value => Sys2Proof.Machine.execCfgw reg value s
  | .cfgr reg => Sys2Proof.Machine.execCfgr reg s
  | .crc16 b len => Sys2Proof.Machine.execCrc16 b len s
  | .crcv b len => Sys2Proof.Machine.execCrcv b len s
  | .txclr => Sys2Proof.Machine.execTxclr s
  | .pushb byte => Sys2Proof.Machine.execPushb byte s
  | .ldb b idx => Sys2Proof.Machine.execLdb b idx s
  | .bldreq slave function addr count => Sys2Proof.Machine.execBldreq slave function addr count s
  | .bldrsp function => Sys2Proof.Machine.execBldrsp function s
  | .bldexc code => Sys2Proof.Machine.execBldexc code s
  | .final => Sys2Proof.Machine.execFinal s
  | .predict w => Sys2Proof.Machine.execPredict w s
  | .decreq b => Sys2Proof.Machine.execDecreq b s
  | .decrsp => Sys2Proof.Machine.execDecrsp s
  | .chkqty w => Sys2Proof.Machine.execChkqty w s
  | .unpack w idx => Sys2Proof.Machine.execUnpack w idx s
  | .rxfix expected => Sys2Proof.Machine.execRxfix expected s
  | .rxund => Sys2Proof.Machine.execRxund s
  | .evByte data => Sys2Proof.Machine.execEvByte data s
  | .evClosed => Sys2Proof.Machine.execEvClosed s
  | .evFail => Sys2Proof.Machine.execEvFail s
  | .evIntr => Sys2Proof.Machine.execEvIntr s
  | .tick => Sys2Proof.Machine.execTick s
  | .reset => Sys2Proof.Machine.execReset s
  | .fc01 => Sys2Proof.Machine.execFc01 s
  | .fc02 => Sys2Proof.Machine.execFc02 s
  | .fc03 => Sys2Proof.Machine.execFc03 s
  | .fc04 => Sys2Proof.Machine.execFc04 s
  | .fc05 => Sys2Proof.Machine.execFc05 s
  | .fc06 => Sys2Proof.Machine.execFc06 s
  | .fc07 => Sys2Proof.Machine.execFc07 s
  | .fc0F => Sys2Proof.Machine.execFc0F s
  | .fc10 => Sys2Proof.Machine.execFc10 s
  | .fc11 => Sys2Proof.Machine.execFc11 s
  | .fcException f => Sys2Proof.Machine.execFcException f s

end Sys2Proof.Machine
end

