-- ==== Sys2Proof/Machine/Deliver.lean ====
section
/-!
DEFINITION. What a step does around `exec`: decode the word a delivery brings, run the instruction, answer a malformed
command word with ILLEGAL_CMD (30_encoding R98); and place a table word so that the next step runs it.
-/

namespace Sys2Proof.Machine

/-- Run what one delivery brings: a malformed command word is refused with ILLEGAL_CMD and no other effect
(30_encoding R98). -/
def runWord (p : PortWord) (s : State) : Result :=
  match decode p with
  | .ok i => exec i s
  | .error _ => refuse .illegalCmd s

/-- Take the next event and run it; with none enabled there is no step (00_scope R5, 43_receiver R195; log entry 1). -/
def runNext (s : State) : Result :=
  match s.nextEvent with
  | none => .refused .noEnabledEvent
  | some (p, t) => runWord p t

/-- A transport item is enabled only while receiving (43_receiver R195), so placing one as the next event needs a
receive in progress: where there is none, one is armed as RXUND arms it (log entry 9). -/
def State.readyFor (s : State) (p : PortWord) : State :=
  if isTransport p = true ∧ s.receiving = false then s.armUndefined else s

/-- Place a port word as the next delivery. -/
def State.place (s : State) (p : PortWord) : State :=
  { s.readyFor p with inbox := p :: s.inbox }

/-- Place the table's word as the next delivery; a word the table's ports do not have changes nothing. -/
def State.placeTableWord (s : State) (nbits w : Nat) : State :=
  match tablePortWord nbits w with
  | none => s
  | some p => s.place p

end Sys2Proof.Machine
end

