-- ==== Sys2Proof/Machine/Step.lean ====
section
/-!
DEFINITION. One step of the block: one event, atomic (00_scope R5, 20_memory R68).
-/

namespace Sys2Proof.Machine

/-- One event (00_scope R5). -/
def step (s : State) : Host.Outcome State Fault Refusal := runNext s

/-- `s` with the instruction of the opcode table's bits placed where the next step takes it. -/
def State.withFetchWord (s : State) (nbits w : Nat) : State := s.placeTableWord nbits w

end Sys2Proof.Machine
end

