-- ==== Sys2Proof/Safety.lean ====
section
/-!
DEFINITION. The terms claims are made in: what a buffer holds as a list of bytes, what of the state a step leaves
alone, and the invariant of every run (10_state R32 to R37, 43_receiver R211).
-/

namespace Sys2Proof.Machine

/-- The buffer holds exactly the bytes of the list, index 0 first, and no other byte has a value. -/
def Memory.Holds (m : List Host.Cell) (bs : List Byte) : Prop := ∀ i, Memory.read m i = bs[i]?

/-- The valid bytes `B[0:VLEN(B))` are the bytes of the list (20_memory R63). -/
def State.Holds (s : State) (b : Buffer) (bs : List Byte) : Prop :=
  s.vlen b = bs.length ∧ Memory.Holds (s.buf b) bs

/-- `be16` of a list of bytes (00_scope R9). -/
def field16 (bs : List Byte) (i : Nat) : Half := bs.getD i 0#8 ++ bs.getD (i + 1) 0#8

/-- Body length of the frame `bs` in a buffer, without its checksum: RXB always ends in one, TXB when finalised
(20_memory R64). -/
def State.bodyOf (s : State) (bs : List Byte) : Buffer → Nat
  | .rxb => bs.length - s.ck
  | .txb => if s.txFinal = true then bs.length - s.ck else bs.length

/-- Buffer select 0 is TXB and 1 is RXB (30_encoding R96). -/
def Selects (b : Byte) (buf : Buffer) : Prop := (b = 0#8 ∧ buf = .txb) ∨ (b = 1#8 ∧ buf = .rxb)

/-- The command would touch RXB while the receiver works (20_memory R70). -/
def State.RxBusy (s : State) (buf : Buffer) : Prop := buf = .rxb ∧ s.receiving = true

/-- Bytes per value of the width codes 0 to 9 (30_encoding R92). -/
def bytesPerValue (w : Byte) : Nat := [1, 1, 2, 2, 4, 4, 8, 8, 4, 8].getD w.toNat 0

/-- Function codes whose request has address and count and no more (30_encoding R83, R84). -/
def PlainRequest (f : Byte) : Prop := f ∈ [0x01#8, 0x02#8, 0x03#8, 0x04#8, 0x05#8, 0x06#8]

/-- Function codes whose request has a byte count and data after address and count (30_encoding R83, R85). -/
def MultiRequest (f : Byte) : Prop := f ∈ [0x0F#8, 0x10#8]

/-- Function codes whose request is the function code alone (30_encoding R83, R86). -/
def BareRequest (f : Byte) : Prop := f ∈ [0x07#8, 0x11#8]

/-- Extra header bytes after the function byte (30_encoding R90), by the codes of R83. -/
def extraHeader (f : Byte) : Nat :=
  if 0x80 ≤ f.toNat then 1
  else if f ∈ [0x01#8, 0x02#8, 0x03#8, 0x04#8, 0x05#8, 0x06#8] then 4
  else if f ∈ [0x0F#8, 0x10#8] then 5
  else if f = 0x11#8 then 1
  else 0

/-- Trailing payload bytes of the frame `bs` with header length `h` (30_encoding R91), by the codes of R83. -/
def trailingPayload (h : Nat) (bs : List Byte) : Nat :=
  if bs.getD h 0#8 ∈ [0x0F#8, 0x10#8] then (bs.getD (h + 5) 0#8).toNat
  else if bs.getD h 0#8 = 0x11#8 then (bs.getD (h + 1) 0#8).toNat
  else 0

/-- The last two bytes are the checksum of the rest, high byte first (20_memory R66, 40_checksum R126). -/
def EndsInCrc (bs : List Byte) : Prop :=
  2 ≤ bs.length ∧ crc16 (bs.take (bs.length - 2)) = field16 bs (bs.length - 2)

/-- What a whole frame must satisfy to be accepted: the checksum in RTU mode, nothing in TCP mode (43_receiver R204). -/
def FrameAccepted (m : Mode) (bs : List Byte) : Prop := m = .tcp ∨ EndsInCrc bs

/-- The byte an instruction brings to the receiver: EV.BYTE and the wire function codes (43_receiver R202, 30_encoding
R83, R88; log entry 4). -/
def brings : Instr → Option Byte
  | .evByte d => some d
  | .fc01 => some 0x01#8
  | .fc02 => some 0x02#8
  | .fc03 => some 0x03#8
  | .fc04 => some 0x04#8
  | .fc05 => some 0x05#8
  | .fc06 => some 0x06#8
  | .fc07 => some 0x07#8
  | .fc0F => some 0x0F#8
  | .fc10 => some 0x10#8
  | .fc11 => some 0x11#8
  | .fcException f => some (BitVec.ofNat 8 (128 + f.toNat))
  | .nop => none
  | .cfgw _ _ => none
  | .cfgr _ => none
  | .crc16 _ _ => none
  | .crcv _ _ => none
  | .txclr => none
  | .pushb _ => none
  | .ldb _ _ => none
  | .bldreq _ _ _ _ => none
  | .bldrsp _ => none
  | .bldexc _ => none
  | .final => none
  | .predict _ => none
  | .decreq _ => none
  | .decrsp => none
  | .chkqty _ => none
  | .unpack _ _ => none
  | .rxfix _ => none
  | .rxund => none
  | .evClosed => none
  | .evFail => none
  | .evIntr => none
  | .tick => none
  | .reset => none

/-- The operand rules of the opcode table's rows (30_encoding R98). -/
inductive OperandRule where
  | anyOperand
  | bufferSelect
  | widthCode
  | configWrite
  | configRead
  deriving DecidableEq, Repr

/-- A command row of spec/opcode_table.json: its mask, its match and what it asks of its operands. -/
structure TableRow where
  mask : BitVec 64
  pattern : BitVec 64
  rule : OperandRule
  deriving DecidableEq, Repr

/-- The nineteen command rows of spec/opcode_table.json, in its order. -/
def commandTable : List TableRow :=
  [⟨0xFFFFFFFFFFFFFFFF#64, 0x0000000000000000#64, .anyOperand⟩,
   ⟨0xFF00FF00000000FF#64, 0x0100000000000000#64, .configWrite⟩,
   ⟨0xFF00FFFFFFFFFFFF#64, 0x0200000000000000#64, .configRead⟩,
   ⟨0xFF00FF0000FFFFFF#64, 0x1000000000000000#64, .bufferSelect⟩,
   ⟨0xFF00FF0000FFFFFF#64, 0x1100000000000000#64, .bufferSelect⟩,
   ⟨0xFFFFFFFFFFFFFFFF#64, 0x2000000000000000#64, .anyOperand⟩,
   ⟨0xFF00FFFFFFFFFFFF#64, 0x2100000000000000#64, .anyOperand⟩,
   ⟨0xFF00FF0000FFFFFF#64, 0x2200000000000000#64, .bufferSelect⟩,
   ⟨0xFF000000000000FF#64, 0x3000000000000000#64, .anyOperand⟩,
   ⟨0xFFFF00FFFFFFFFFF#64, 0x3100000000000000#64, .anyOperand⟩] ++
  [⟨0xFF00FFFFFFFFFFFF#64, 0x3200000000000000#64, .anyOperand⟩,
   ⟨0xFFFFFFFFFFFFFFFF#64, 0x3300000000000000#64, .anyOperand⟩,
   ⟨0xFF00FFFFFFFFFFFF#64, 0x4000000000000000#64, .widthCode⟩,
   ⟨0xFF00FFFFFFFFFFFF#64, 0x4100000000000000#64, .bufferSelect⟩,
   ⟨0xFFFFFFFFFFFFFFFF#64, 0x4200000000000000#64, .anyOperand⟩,
   ⟨0xFF00FFFFFFFFFFFF#64, 0x4300000000000000#64, .widthCode⟩,
   ⟨0xFF00FF0000FFFFFF#64, 0x4400000000000000#64, .widthCode⟩,
   ⟨0xFFFFFF00000000FF#64, 0x5000000000000000#64, .anyOperand⟩,
   ⟨0xFFFFFFFFFFFFFFFF#64, 0x5100000000000000#64, .anyOperand⟩]

/-- The operand field `f1`, bits 55:48, and the 32-bit operand, bits 39:8, obey the row's rule (10_state R29,
30_encoding R92, R96, R98). -/
def OperandRule.Holds (w : BitVec 64) : OperandRule → Prop
  | .anyOperand => True
  | .bufferSelect => (w.extractLsb' 48 8).toNat ≤ 1
  | .widthCode => (w.extractLsb' 48 8).toNat ≤ 9
  | .configWrite =>
    (w.extractLsb' 48 8).toNat ≤ 3 ∧
      ((w.extractLsb' 48 8).toNat = 0 → (w.extractLsb' 8 32).toNat ≤ 1)
  | .configRead =>
    (w.extractLsb' 48 8).toNat ≤ 3 ∨ (8 ≤ (w.extractLsb' 48 8).toNat ∧ (w.extractLsb' 48 8).toNat ≤ 17)

/-- The command word is one of the table's, so not malformed (30_encoding R98). -/
def LegalWord (w : BitVec 64) : Prop :=
  ∃ row ∈ commandTable, w &&& row.mask = row.pattern ∧ row.rule.Holds w

/-- The result registers are the same. -/
def SameResults (s t : State) : Prop :=
  t.r0 = s.r0 ∧ t.r1 = s.r1 ∧ t.r2 = s.r2 ∧ t.r3 = s.r3 ∧ t.r4 = s.r4 ∧ t.r5 = s.r5 ∧ t.r6 = s.r6 ∧ t.r7 = s.r7

/-- The configuration registers are the same. -/
def SameConfig (s t : State) : Prop :=
  t.mode = s.mode ∧ t.tFirst = s.tFirst ∧ t.tEof = s.tEof ∧ t.tResp = s.tResp

/-- The outbound side is the same: TXB, its length, the finalised flag, the transaction id. -/
def SameTx (s t : State) : Prop :=
  t.tid = s.tid ∧ t.txb = s.txb ∧ t.txLen = s.txLen ∧ t.txFinal = s.txFinal

/-- The receiver's side is the same: RXB and every `rx_*` register. -/
def SameRx (s t : State) : Prop :=
  t.rxb = s.rxb ∧ t.rxLen = s.rxLen ∧ t.rxState = s.rxState ∧ t.rxResult = s.rxResult ∧ t.rxKind = s.rxKind ∧
    t.rxKnown = s.rxKnown ∧ t.rxNeed = s.rxNeed ∧ t.rxTotal = s.rxTotal ∧ t.rxTimer = s.rxTimer ∧
    t.rxReload = s.rxReload

/-- What the environment has yet to deliver is the same. -/
def SameEnvironment (s t : State) : Prop := t.inbox = s.inbox ∧ t.later = s.later

/-- The transport's items among some deliveries, in order. -/
def transportItems (ps : List PortWord) : List PortWord := ps.filter isTransport

/-- The codes a command may leave in `sta` (60_exceptions R251): never TIMEOUT, TRANSPORT_CLOSED, TRANSPORT_FAILURE
or NONE. -/
def Status.commandCode : Status → Bool
  | .ok => true
  | .timeout => false
  | .transportClosed => false
  | .transportFailure => false
  | .invalidCrc => true
  | .invalidData => true
  | .unsupportedWidth => true
  | .remoteException => true
  | .undefinedLength => true
  | .illegalCmd => true
  | .busy => true
  | .sequence => true
  | .range => true
  | .noOutcome => false

/-- The codes a faulted receive may have (10_state R35). -/
def Status.faultCode : Status → Bool
  | .ok => false
  | .timeout => true
  | .transportClosed => true
  | .transportFailure => true
  | .invalidCrc => true
  | .invalidData => true
  | .unsupportedWidth => false
  | .remoteException => false
  | .undefinedLength => false
  | .illegalCmd => false
  | .busy => false
  | .sequence => false
  | .range => false
  | .noOutcome => false

/-- Both buffers keep their canonical form. -/
def State.BuffersWf (s : State) : Prop := Memory.wf s.txb = true ∧ Memory.wf s.rxb = true

/-- Exactly the bytes below the valid length have a value (10_state R32, R33). -/
def Memory.Filled (m : List Host.Cell) (n : Nat) : Prop := ∀ i, (Memory.read m i).isSome = decide (i < n)

/-- Exactly the valid bytes of the two buffers have values. -/
def State.BuffersFilled (s : State) : Prop :=
  Memory.Filled s.txb s.txLen.toNat ∧ Memory.Filled s.rxb s.rxLen.toNat

/-- The outbound frame never exceeds the mode's maximum, and a finalised one has a function byte (10_state R32,
41_frame_encode R146). -/
def State.TxInv (s : State) : Prop :=
  s.txLen.toNat ≤ s.maxAdu ∧ (s.txFinal = true → s.h + 1 + s.ck ≤ s.txLen.toNat)

/-- While receiving: `rx_need ≥ 1` and `rx_len + rx_need = rx_total ≤ MAXADU(mode)`, with no outcome yet (10_state
R35, R36; 43_receiver R211). -/
def State.Counting (s : State) : Prop :=
  1 ≤ s.rxNeed.toNat ∧ s.rxLen.toNat + s.rxNeed.toNat = s.rxTotal.toNat ∧ s.rxTotal.toNat ≤ s.maxAdu ∧
    s.rxResult = .noOutcome

/-- The total is known: in fixed-length mode it is at least an exception frame; in undefined-length mode the function
byte has arrived and the total covers its extra header and the checksum (43_receiver R193, R203). -/
def State.TotalKnown (s : State) : Prop :=
  (s.rxKind = .fixed ∧ Config.excLen s.mode ≤ s.rxTotal.toNat) ∨
    (s.rxKind = .undefinedLength ∧
      ∃ f, Memory.read s.rxb s.h = some f ∧ s.h + 1 + xhdr (fclass f) + s.ck ≤ s.rxTotal.toNat)

/-- The total is not known yet: the receiver reads the extra header bytes of the function byte that has arrived
(43_receiver R203). -/
def State.TotalUnknown (s : State) : Prop :=
  s.rxKind = .undefinedLength ∧
    ∃ f, Memory.read s.rxb s.h = some f ∧ s.rxTotal.toNat = s.h + 1 + xhdr (fclass f)

/-- A complete frame is in RXB: its length, its checksum in RTU mode, and the outcome its function byte gives
(10_state R33, R35, R36; 43_receiver R204, R211; 42_predict_decode R166 on the length of an exception frame). -/
def State.FrameComplete (s : State) : Prop :=
  s.rxNeed = 0#9 ∧ s.rxTotal = s.rxLen ∧ s.h + 1 + s.ck ≤ s.rxLen.toNat ∧ s.rxLen.toNat ≤ s.maxAdu ∧
    s.rxTimer = 0#32 ∧ s.frameGood = some true ∧
    ∃ f, Memory.read s.rxb s.h = some f ∧
      s.rxResult = (if exceptionBit f = true then .remoteException else .ok) ∧
      (exceptionBit f = true → s.h + 2 + s.ck ≤ s.rxLen.toNat)

/-- What holds of the receiver in each of its states (10_state R34 to R37, 43_receiver R211). -/
def State.RxInv (s : State) : Prop :=
  match s.rxState with
  | .idle =>
    s.rxResult = .noOutcome ∧ s.rxLen = 0#9 ∧ s.rxNeed = 0#9 ∧ s.rxTotal = 0#9 ∧ s.rxTimer = 0#32
  | .awaitFunction =>
    s.Counting ∧ s.rxTotal.toNat = s.h + 1 ∧ s.rxKind = .undefinedLength ∧ s.rxKnown = false
  | .awaitRemainder =>
    s.Counting ∧ (s.rxKnown = true → s.TotalKnown) ∧ (s.rxKnown = false → s.TotalUnknown)
  | .complete => s.FrameComplete
  | .faulted => s.rxResult.faultCode = true ∧ s.rxTimer = 0#32 ∧ s.rxLen.toNat ≤ s.maxAdu

/-- The invariant of every run from reset. -/
structure State.Inv (s : State) : Prop where
  buffersWf : s.BuffersWf
  buffersFilled : s.BuffersFilled
  txInv : s.TxInv
  rxInv : s.RxInv
  staCode : s.sta.commandCode = true
  r7Zero : s.r7 = 0#32

/-- Run a list of instructions in order, stopping where one has no next state. -/
def runAll : List Instr → State → Result
  | [], s => .next s
  | i :: is, s =>
    match exec i s with
    | .next t => runAll is t
    | .fault r => .fault r
    | .refused r => .refused r

/-- Take a number of steps, stopping where there is no next state. -/
def runSteps : Nat → State → Result
  | 0, s => .next s
  | k + 1, s =>
    match step s with
    | .next t => runSteps k t
    | .fault r => .fault r
    | .refused r => .refused r

end Sys2Proof.Machine
end

