-- ==== Sys2Proof/Certificates/Slice0/Obligations.lean ====
section
/-!
DEFINITION. The statements for the provers, from the numbered rules of spec/. Each docstring names the rule. Where a
statement speaks of a buffer's bytes it does so through `State.Holds`, that is, through the model's read of one byte
at every index.
-/

open Sys2Proof Sys2Proof.Machine

/-! ## Encodings -/

/-- 30_encoding R83, R88, R95, R96, R97, R101, R102: decoding the encoding of a well-formed instruction gives it back,
with every operand at every value the encoding admits. -/
def Obligations.DecodeOfEncodeIsIdentity : Prop :=
  ∀ i : Instr, i.wellFormed = true → decode (encode i) = .ok i

/-- 30_encoding R95, R96, R97: a command word has one meaning; what decodes is well formed and encodes to the same
word. -/
def Obligations.EncodeOfDecodeIsIdentity : Prop :=
  ∀ (w : BitVec 64) (i : Instr), decode (.command w) = .ok i → i.wellFormed = true ∧ encode i = .command w

/-- 30_encoding R98 with opcode_table.json: a command word decodes exactly when it matches a row's mask and match and
the row's operand constraint; every other word is refused with ILLEGAL_CMD and no other effect. -/
def Obligations.MalformedWordIsIllegalCommand : Prop :=
  ∀ (s u : State) (w : BitVec 64), s.nextEvent = some (.command w, u) →
    (LegalWord w → ∃ i, decode (.command w) = .ok i ∧ step s = exec i u) ∧
    (¬LegalWord w → step s = .next { u with sta := .illegalCmd })

/-- 30_encoding R98: an instruction with a reserved operand value is refused with ILLEGAL_CMD and no other effect. -/
def Obligations.ReservedOperandIsIllegalCommand : Prop :=
  ∀ (i : Instr) (s : State), i.wellFormed = false → exec i s = .next { s with sta := .illegalCmd }

/-- 30_encoding R95, R97, R101, R83 on some words of each family, written out from the encoding. A sanity statement. -/
def Obligations.SampleWordsDecode : Prop :=
  decode (.command 0x010300000000C800#64) = .ok (.cfgw 3#8 200#32) ∧
  decode (.command 0x1100000008000000#64) = .ok (.crcv 0#8 8#16) ∧
  decode (.command 0x301103006B000300#64) = .ok (.bldreq 0x11#8 0x03#8 0x006B#16 3#16) ∧
  decode (.command 0x4402000001000000#64) = .ok (.unpack 2#8 1#16) ∧
  decode (.command 0x500000FFFFFFFF00#64) = .ok (.rxfix 0xFFFFFFFF#32) ∧
  decode (.transport 0x0AB#10) = .ok (.evByte 0xAB#8) ∧
  decode (.functionByte 0x83#8) = .ok (.fcException 3#7)

/-! ## One step -/

/-- 00_scope R5: a step takes one event and, when it decodes to an instruction, is `exec` of it; around `exec` the step
only takes the event from what the environment has yet to deliver: from the inbox first, then from the deliveries that
come again and again, then from the order left free (log entry 1). -/
def Obligations.StepRunsDecodedInstruction : Prop :=
  (∀ (s u : State) (p : PortWord) (i : Instr),
    s.nextEvent = some (p, u) → decode p = .ok i → i.wellFormed = true → step s = exec i u) ∧
  (∀ (s : State) (p : PortWord) (rest : List PortWord),
    nextDelivery s.receiving s.inbox = some (p, rest) → s.nextEvent = some (p, { s with inbox := rest })) ∧
  (∀ (s : State) (p : PortWord) (items rest : List PortWord),
    nextDelivery s.receiving s.inbox = none → s.later = .again items →
    nextDelivery s.receiving items = some (p, rest) → s.nextEvent = some (p, { s with inbox := s.inbox ++ rest })) ∧
  (∀ (s : State) (n : Nat),
    nextDelivery s.receiving s.inbox = none → s.later = .free n →
    (s.receiving = true ∨ (Config.freeEvent n).port ≠ .transport) →
      s.nextEvent = some (Config.freeEvent n, { s with later := .free (n + 1) }))

/-- 43_receiver R195 as the model holds the environment's order (log entries 1, 4, 5): outside the receiving states there
is no step for a transport event nor for a wire function byte; the step takes the first delivery that is enabled;
transport items met while not receiving stay in the inbox, in order; with nothing enabled, now or later, there is no step. -/
def Obligations.TransportItemsWaitForAReceive : Prop :=
  (∀ (i : Instr) (s : State), i.port = .transport → s.receiving = false → exec i s = .refused .eventNotEnabled) ∧
  (∀ (r : Bool) (skipped : List PortWord) (p : PortWord) (rest : List PortWord),
    (∀ q ∈ skipped, q.port = .transport) → (skipped = [] ∨ r = false) → (r = true ∨ p.port ≠ .transport) →
      nextDelivery r (skipped ++ p :: rest) = some (p, skipped ++ rest)) ∧
  (∀ (s : State) (items : List PortWord), s.later = .again items →
    (∀ q ∈ s.inbox ++ items, q.port = .transport) → (s.receiving = false ∨ s.inbox ++ items = []) →
      step s = .refused .noEnabledEvent)

/-! ## The checksum -/

/-- 40_checksum R122: the entries of the two tables come from the generator `T(i)`. -/
def Obligations.CrcTablesComeFromGenerator : Prop :=
  ∀ i : Byte, tblHi i = loByte (crcEight (0#8 ++ i)) ∧ tblLo i = hiByte (crcEight (0#8 ++ i))

/-- 40_checksum R123: on the accumulator with its halves exchanged, the table-driven byte step is the bitwise step of
CRC-16/MODBUS, from the same seed; the checksum of a byte sequence is the bitwise one with its halves exchanged, 0x374B
(and 0x4B37 exchanged) over the nine ASCII bytes "123456789". -/
def Obligations.CrcIsTheCatalogueCrc : Prop :=
  (∀ (r : Half) (b : Byte), swapHalves (crcStep r b) = catalogueStep (swapHalves r) b) ∧
  swapHalves 0xFFFF#16 = 0xFFFF#16 ∧
  (∀ bs : List Byte, swapHalves (crc16 bs) = bs.foldl catalogueStep 0xFFFF#16) ∧
  crc16 [0x31#8, 0x32#8, 0x33#8, 0x34#8, 0x35#8, 0x36#8, 0x37#8, 0x38#8, 0x39#8] = 0x374B#16 ∧
  swapHalves 0x374B#16 = 0x4B37#16

/-- 40_checksum R127: a frame that ends in its own checksum, high byte first, verifies; with any single bit of its
payload inverted and the checksum bytes unchanged it does not; for every payload, in either buffer. -/
def Obligations.CrcVerifiesAndDetectsBitFlips : Prop :=
  (∀ (s : State) (buf : Buffer) (p : List Byte),
    s.Holds buf (p ++ [hiByte (crc16 p), loByte (crc16 p)]) → s.crcOk buf (p.length + 2) = some true) ∧
  (∀ (s : State) (buf : Buffer) (p : List Byte) (k j : Nat), k < p.length → j < 8 →
    s.Holds buf
      (p.set k (p.getD k 0#8 ^^^ BitVec.twoPow 8 j) ++ [hiByte (crc16 p), loByte (crc16 p)]) →
    s.crcOk buf (p.length + 2) = some false)

/-- 40_checksum R124: CRC16. -/
def Obligations.Crc16Command : Prop :=
  (∀ (s : State) (b : Byte) (buf : Buffer) (len : Half) (bs : List Byte),
    Selects b buf → ¬s.RxBusy buf → s.Holds buf bs → len.toNat ≤ bs.length →
      exec (.crc16 b len) s = .next { s with r0 := (crc16 (bs.take len.toNat)).setWidth 32, sta := .ok }) ∧
  (∀ (s : State) (b : Byte) (len : Half), 1 < b.toNat → exec (.crc16 b len) s = .next { s with sta := .illegalCmd }) ∧
  (∀ (s : State) (len : Half), s.receiving = true → exec (.crc16 1#8 len) s = .next { s with sta := .busy }) ∧
  (∀ (s : State) (b : Byte) (buf : Buffer) (len : Half),
    Selects b buf → ¬s.RxBusy buf → s.vlen buf < len.toNat →
      exec (.crc16 b len) s = .next { s with sta := .range })

/-- 40_checksum R125: CRCV. A failed verification changes nothing but `sta`. -/
def Obligations.CrcvCommand : Prop :=
  (∀ (s : State) (b : Byte) (buf : Buffer) (len : Half) (bs : List Byte),
    Selects b buf → ¬s.RxBusy buf → s.Holds buf bs → 2 ≤ len.toNat → len.toNat ≤ bs.length →
      (EndsInCrc (bs.take len.toNat) →
        exec (.crcv b len) s = .next { s with r0 := BitVec.ofNat 32 len.toNat, sta := .ok }) ∧
      (¬EndsInCrc (bs.take len.toNat) → exec (.crcv b len) s = .next { s with sta := .invalidCrc })) ∧
  (∀ (s : State) (b : Byte) (len : Half), 1 < b.toNat → exec (.crcv b len) s = .next { s with sta := .illegalCmd }) ∧
  (∀ (s : State) (len : Half), s.receiving = true → exec (.crcv 1#8 len) s = .next { s with sta := .busy }) ∧
  (∀ (s : State) (b : Byte) (buf : Buffer) (len : Half),
    Selects b buf → ¬s.RxBusy buf → (len.toNat < 2 ∨ s.vlen buf < len.toNat) →
      exec (.crcv b len) s = .next { s with sta := .range })

/-! ## Buffer and configuration commands -/

/-- 44_buffer_config R230: NOP writes `sta` only, in every state. -/
def Obligations.NopCommand : Prop :=
  ∀ s : State, exec .nop s = .next { s with sta := .ok }

/-- 44_buffer_config R233: TXCLR empties the outbound buffer, whose bytes keep no value, and writes nothing else but
`sta`; in every state. -/
def Obligations.TxclrCommand : Prop :=
  ∀ s : State, ∃ t, exec .txclr s = .next t ∧
    t = { s with txb := t.txb, txLen := 0#9, txFinal := false, sta := .ok } ∧ t.Holds .txb []

/-- 44_buffer_config R231, 10_state R25: CFGW. A write of MODE discards both frames and the receiver's outcome; the
register and value checks come before BUSY. -/
def Obligations.CfgwCommand : Prop :=
  (∀ (s : State) (m : Mode) (value : Word), s.receiving = false → value = (if m = .tcp then 1#32 else 0#32) →
    exec (.cfgw 0#8 value) s = .next
      { s with
        mode := m, txb := [], txLen := 0#9, txFinal := false, rxb := [], rxLen := 0#9, rxState := .idle,
        rxResult := .noOutcome, rxKind := .fixed, rxKnown := false, rxNeed := 0#9, rxTotal := 0#9,
        rxTimer := 0#32, rxReload := 0#32, sta := .ok }) ∧
  (∀ (s : State) (value : Word), s.receiving = false →
    exec (.cfgw 1#8 value) s = .next { s with tFirst := value, sta := .ok } ∧
    exec (.cfgw 2#8 value) s = .next { s with tEof := value, sta := .ok } ∧
    exec (.cfgw 3#8 value) s = .next { s with tResp := value, sta := .ok }) ∧
  (∀ (s : State) (reg : Byte) (value : Word), 3 < reg.toNat ∨ (reg = 0#8 ∧ 1 < value.toNat) →
    exec (.cfgw reg value) s = .next { s with sta := .illegalCmd }) ∧
  (∀ (s : State) (reg : Byte) (value : Word), reg.toNat ≤ 3 → (reg = 0#8 → value.toNat ≤ 1) →
    s.receiving = true → exec (.cfgw reg value) s = .next { s with sta := .busy })

/-- 44_buffer_config R232, 10_state R29: CFGR reads each register of the map, zero-extended, in every state; the
unassigned indices are ILLEGAL_CMD. -/
def Obligations.CfgrCommand : Prop :=
  (∀ s : State,
    exec (.cfgr 0#8) s = .next { s with r0 := (if s.mode = .tcp then 1#32 else 0#32), sta := .ok } ∧
    exec (.cfgr 1#8) s = .next { s with r0 := s.tFirst, sta := .ok } ∧
    exec (.cfgr 2#8) s = .next { s with r0 := s.tEof, sta := .ok } ∧
    exec (.cfgr 3#8) s = .next { s with r0 := s.tResp, sta := .ok } ∧
    exec (.cfgr 8#8) s = .next { s with r0 := BitVec.ofNat 32 s.rxState.code.toNat, sta := .ok } ∧
    exec (.cfgr 9#8) s = .next { s with r0 := BitVec.ofNat 32 s.rxResult.code.toNat, sta := .ok } ∧
    exec (.cfgr 10#8) s = .next { s with r0 := BitVec.ofNat 32 s.rxLen.toNat, sta := .ok } ∧
    exec (.cfgr 11#8) s = .next { s with r0 := BitVec.ofNat 32 s.rxTotal.toNat, sta := .ok } ∧
    exec (.cfgr 12#8) s = .next { s with r0 := BitVec.ofNat 32 s.rxNeed.toNat, sta := .ok } ∧
    exec (.cfgr 13#8) s = .next { s with r0 := s.rxTimer, sta := .ok } ∧
    exec (.cfgr 14#8) s = .next { s with r0 := BitVec.ofNat 32 s.txLen.toNat, sta := .ok } ∧
    exec (.cfgr 15#8) s = .next { s with r0 := (if s.txFinal = true then 1#32 else 0#32), sta := .ok } ∧
    exec (.cfgr 16#8) s = .next { s with r0 := BitVec.ofNat 32 s.tid.toNat, sta := .ok } ∧
    exec (.cfgr 17#8) s = .next
      { s with
        r0 := BitVec.ofNat 32
          ((if s.rxKind = .undefinedLength then 1 else 0) + (if s.rxKnown = true then 2 else 0)),
        sta := .ok }) ∧
  (∀ (s : State) (reg : Byte), (4 ≤ reg.toNat ∧ reg.toNat ≤ 7) ∨ 18 ≤ reg.toNat →
    exec (.cfgr reg) s = .next { s with sta := .illegalCmd })

/-- 44_buffer_config R234: PUSHB appends one byte, up to `MAXADU(mode) - CK(mode)` bytes, before FINAL. -/
def Obligations.PushbCommand : Prop :=
  (∀ (s : State) (byte : Byte) (bs : List Byte),
    s.txFinal = false → s.Holds .txb bs → bs.length < s.maxAdu - s.ck →
      ∃ t, exec (.pushb byte) s = .next t ∧
        t = { s with txb := t.txb, txLen := toLen (bs.length + 1), r0 := BitVec.ofNat 32 (bs.length + 1), sta := .ok } ∧
        t.Holds .txb (bs ++ [byte])) ∧
  (∀ (s : State) (byte : Byte), s.txFinal = true → exec (.pushb byte) s = .next { s with sta := .sequence }) ∧
  (∀ (s : State) (byte : Byte), s.txFinal = false → s.maxAdu - s.ck ≤ s.txLen.toNat →
    exec (.pushb byte) s = .next { s with sta := .range })

/-- 44_buffer_config R235: LDB delivers a valid byte of either buffer; beyond the valid length it is RANGE. -/
def Obligations.LdbCommand : Prop :=
  (∀ (s : State) (b : Byte) (buf : Buffer) (idx : Half) (bs : List Byte),
    Selects b buf → ¬s.RxBusy buf → s.Holds buf bs → idx.toNat < bs.length →
      exec (.ldb b idx) s = .next { s with r0 := (bs.getD idx.toNat 0#8).setWidth 32, sta := .ok }) ∧
  (∀ (s : State) (b : Byte) (idx : Half), 1 < b.toNat → exec (.ldb b idx) s = .next { s with sta := .illegalCmd }) ∧
  (∀ (s : State) (idx : Half), s.receiving = true → exec (.ldb 1#8 idx) s = .next { s with sta := .busy }) ∧
  (∀ (s : State) (b : Byte) (buf : Buffer) (idx : Half),
    Selects b buf → ¬s.RxBusy buf → s.vlen buf ≤ idx.toNat →
      exec (.ldb b idx) s = .next { s with sta := .range })

/-! ## Building frames -/

/-- 41_frame_encode R141 in RTU mode: `[slave, function, addr_hi, addr_lo, count_hi, count_lo]`, or the bare function
code for read exception status and report slave id; `tid` is untouched. -/
def Obligations.BldreqInRtuMode : Prop :=
  (∀ (s : State) (slave f : Byte) (addr count : Half), s.mode = .rtu → PlainRequest f ∨ MultiRequest f →
    ∃ t, exec (.bldreq slave f addr count) s = .next t ∧
      t = { s with txb := t.txb, txLen := 6#9, txFinal := false, r0 := 6#32, sta := .ok } ∧
      t.Holds .txb [slave, f, hiByte addr, loByte addr, hiByte count, loByte count]) ∧
  (∀ (s : State) (slave f : Byte) (addr count : Half), s.mode = .rtu → BareRequest f →
    ∃ t, exec (.bldreq slave f addr count) s = .next t ∧
      t = { s with txb := t.txb, txLen := 2#9, txFinal := false, r0 := 2#32, sta := .ok } ∧
      t.Holds .txb [slave, f])

/-- 41_frame_encode R141 in TCP mode, R142: the transaction id is incremented first, modulo 65536, and the new value
emitted; protocol id and length placeholder are zero. -/
def Obligations.BldreqInTcpMode : Prop :=
  (∀ (s : State) (slave f : Byte) (addr count : Half), s.mode = .tcp → PlainRequest f ∨ MultiRequest f →
    ∃ t, exec (.bldreq slave f addr count) s = .next t ∧
      t = { s with
            tid := BitVec.ofNat 16 ((s.tid.toNat + 1) % 65536), txb := t.txb, txLen := 12#9, txFinal := false,
            r0 := 12#32, sta := .ok } ∧
      t.Holds .txb
        [hiByte t.tid, loByte t.tid, 0#8, 0#8, 0#8, 0#8, slave, f, hiByte addr, loByte addr, hiByte count,
          loByte count]) ∧
  (∀ (s : State) (slave f : Byte) (addr count : Half), s.mode = .tcp → BareRequest f →
    ∃ t, exec (.bldreq slave f addr count) s = .next t ∧
      t = { s with
            tid := BitVec.ofNat 16 ((s.tid.toNat + 1) % 65536), txb := t.txb, txLen := 8#9, txFinal := false,
            r0 := 8#32, sta := .ok } ∧
      t.Holds .txb [hiByte t.tid, loByte t.tid, 0#8, 0#8, 0#8, 0#8, slave, f])

/-- 41_frame_encode R141, 30_encoding R83: a function code outside the ten of the enumeration, or with bit 7 set, is
refused with INVALID_DATA, and the refusal does not advance `tid`. -/
def Obligations.BldreqRefusesOtherFunctions : Prop :=
  ∀ (s : State) (slave f : Byte) (addr count : Half), ¬PlainRequest f → ¬MultiRequest f → ¬BareRequest f →
    exec (.bldreq slave f addr count) s = .next { s with sta := .invalidData }

/-- 41_frame_encode R143: BLDRSP copies the identity of the request in RXB; `tid` is not touched. -/
def Obligations.BldrspCommand : Prop :=
  (∀ (s : State) (f : Byte) (bs : List Byte), s.rxState = .complete → s.Holds .rxb bs → s.h + 1 ≤ bs.length →
    (s.mode = .rtu → ∃ t, exec (.bldrsp f) s = .next t ∧
      t = { s with txb := t.txb, txLen := 2#9, txFinal := false, r0 := 2#32, sta := .ok } ∧
      t.Holds .txb [bs.getD 0 0#8, f]) ∧
    (s.mode = .tcp → ∃ t, exec (.bldrsp f) s = .next t ∧
      t = { s with txb := t.txb, txLen := 8#9, txFinal := false, r0 := 8#32, sta := .ok } ∧
      t.Holds .txb [bs.getD 0 0#8, bs.getD 1 0#8, 0#8, 0#8, 0#8, 0#8, bs.getD 6 0#8, f])) ∧
  (∀ (s : State) (f : Byte), s.receiving = true → exec (.bldrsp f) s = .next { s with sta := .busy }) ∧
  (∀ (s : State) (f : Byte), s.receiving = false → s.rxState ≠ .complete →
    exec (.bldrsp f) s = .next { s with sta := .sequence })

/-- 41_frame_encode R144, 30_encoding R88: BLDEXC builds the identity, the request's function code with bit 7 set and
the code byte. -/
def Obligations.BldexcCommand : Prop :=
  (∀ (s : State) (code : Byte) (bs : List Byte), s.rxState = .complete → s.Holds .rxb bs → s.h + 1 ≤ bs.length →
    (s.mode = .rtu → ∃ t, exec (.bldexc code) s = .next t ∧
      t = { s with txb := t.txb, txLen := 3#9, txFinal := false, r0 := 3#32, sta := .ok } ∧
      t.Holds .txb [bs.getD 0 0#8, bs.getD 1 0#8 ||| 0x80#8, code]) ∧
    (s.mode = .tcp → ∃ t, exec (.bldexc code) s = .next t ∧
      t = { s with txb := t.txb, txLen := 9#9, txFinal := false, r0 := 9#32, sta := .ok } ∧
      t.Holds .txb
        [bs.getD 0 0#8, bs.getD 1 0#8, 0#8, 0#8, 0#8, 0#8, bs.getD 6 0#8, bs.getD 7 0#8 ||| 0x80#8, code])) ∧
  (∀ (s : State) (code : Byte), s.receiving = true → exec (.bldexc code) s = .next { s with sta := .busy }) ∧
  (∀ (s : State) (code : Byte), s.receiving = false → s.rxState ≠ .complete →
    exec (.bldexc code) s = .next { s with sta := .sequence })

/-- 41_frame_encode R146: FINAL appends the checksum, high byte first (RTU), or writes `tx_len - 6` big-endian into the
length field (TCP); SEQUENCE and INVALID_DATA as the rule lists them. -/
def Obligations.FinalCommand : Prop :=
  (∀ (s : State) (bs : List Byte), s.mode = .rtu → s.txFinal = false → s.Holds .txb bs → 2 ≤ bs.length →
    bs.length + 2 ≤ 256 →
      ∃ t, exec .final s = .next t ∧
        t = { s with
              txb := t.txb, txLen := toLen (bs.length + 2), txFinal := true, r0 := BitVec.ofNat 32 (bs.length + 2),
              sta := .ok } ∧
        t.Holds .txb (bs ++ [hiByte (crc16 bs), loByte (crc16 bs)])) ∧
  (∀ (s : State) (bs : List Byte), s.mode = .tcp → s.txFinal = false → s.Holds .txb bs → 8 ≤ bs.length →
    bs.length ≤ 260 →
      ∃ t, exec .final s = .next t ∧
        t = { s with txb := t.txb, txFinal := true, r0 := BitVec.ofNat 32 bs.length, sta := .ok } ∧
        t.Holds .txb
          ((bs.set 4 (BitVec.ofNat 8 ((bs.length - 6) / 256))).set 5 (BitVec.ofNat 8 ((bs.length - 6) % 256)))) ∧
  (∀ s : State, s.txFinal = true ∨ s.txLen.toNat < s.h + 1 → exec .final s = .next { s with sta := .sequence }) ∧
  (∀ s : State, s.txFinal = false → s.h + 1 ≤ s.txLen.toNat → s.maxAdu < s.txLen.toNat + s.ck →
    exec .final s = .next { s with sta := .invalidData })

/-- 41_frame_encode R147, 30_encoding R80, R81, R82: the frame a request build and FINAL leave is, byte for byte, the
wire frame: with its checksum in RTU mode, with protocol id 0 and the length of what follows in TCP mode. -/
def Obligations.BuiltRequestIsWireFrame : Prop :=
  (∀ (s : State) (slave f : Byte) (addr count : Half), s.mode = .rtu → PlainRequest f →
    ∃ t bs, runAll [.bldreq slave f addr count, .final] s = .next t ∧
      bs = [slave, f, hiByte addr, loByte addr, hiByte count, loByte count] ∧
      t.Holds .txb (bs ++ [hiByte (crc16 bs), loByte (crc16 bs)]) ∧ t.crcOk .txb t.txLen.toNat = some true) ∧
  (∀ (s : State) (slave f : Byte) (addr count : Half), s.mode = .tcp → PlainRequest f →
    ∃ t, runAll [.bldreq slave f addr count, .final] s = .next t ∧
      t.Holds .txb
        [hiByte (s.tid + 1#16), loByte (s.tid + 1#16), 0#8, 0#8, 0#8, 6#8, slave, f, hiByte addr, loByte addr,
          hiByte count, loByte count])

/-- 41_frame_encode R147: whatever frame FINAL finalises, its trailing CRC verifies (RTU) and its length field is
`tx_len - 6` (TCP). -/
def Obligations.FinalisedFrameIsValid : Prop :=
  ∀ (s t : State), s.BuffersFilled → exec .final s = .next t → t.sta = .ok →
    (s.mode = .rtu → t.crcOk .txb t.txLen.toNat = some true) ∧
    (s.mode = .tcp → ∃ bs, t.Holds .txb bs ∧ (field16 bs 4).toNat = t.txLen.toNat - 6)

/-- 41_frame_encode R148: decoding a built request recovers identity, function, address and count, before and after
FINAL; for the multi-writes once the byte count has been pushed, with or without the data after it; for the bare forms
address and count read as 0. -/
def Obligations.BuiltRequestRoundTrips : Prop :=
  (∀ (s : State) (slave f : Byte) (addr count : Half), PlainRequest f →
    ∃ t u, runAll [.bldreq slave f addr count, .decreq 0#8] s = .next t ∧
      runAll [.bldreq slave f addr count, .final, .decreq 0#8] s = .next u ∧
      (∀ v ∈ [t, u], v.sta = .ok ∧ v.r0 = slave.setWidth 32 ∧ v.r1 = f.setWidth 32 ∧ v.r2 = addr.setWidth 32 ∧
        v.r3 = count.setWidth 32)) ∧
  (∀ (s : State) (slave f n : Byte) (addr count : Half) (data : List Byte), MultiRequest f →
    s.h + 6 + data.length + s.ck ≤ s.maxAdu →
    ∃ t u, runAll (.bldreq slave f addr count :: ((n :: data).map .pushb ++ [.decreq 0#8])) s = .next t ∧
      runAll (.bldreq slave f addr count :: ((n :: data).map .pushb ++ [.final, .decreq 0#8])) s = .next u ∧
      (∀ v ∈ [t, u], v.sta = .ok ∧ v.r0 = slave.setWidth 32 ∧ v.r1 = f.setWidth 32 ∧ v.r2 = addr.setWidth 32 ∧
        v.r3 = count.setWidth 32 ∧ v.r6 = n.setWidth 32)) ∧
  (∀ (s : State) (slave f : Byte) (addr count : Half), BareRequest f →
    ∃ t u, runAll [.bldreq slave f addr count, .decreq 0#8] s = .next t ∧
      runAll [.bldreq slave f addr count, .final, .decreq 0#8] s = .next u ∧
      (∀ v ∈ [t, u], v.sta = .ok ∧ v.r0 = slave.setWidth 32 ∧ v.r1 = f.setWidth 32 ∧ v.r2 = 0#32 ∧ v.r3 = 0#32))

/-! ## Prediction and decoding -/

/-- 42_predict_decode R161: PREDICT on the request in TXB. -/
def Obligations.PredictCommand : Prop :=
  (∀ (s : State) (w : Byte) (bs : List Byte) (n pdu : Nat),
    w.toNat ≤ 9 → s.Holds .txb bs → n = (field16 bs (s.h + 3)).toNat →
    ((bs.getD s.h 0#8 ∈ [0x01#8, 0x02#8] ∧ s.h + 5 ≤ s.bodyOf bs .txb ∧ pdu = 2 + (n + 7) / 8) ∨
      (bs.getD s.h 0#8 ∈ [0x03#8, 0x04#8] ∧ s.h + 5 ≤ s.bodyOf bs .txb ∧ pdu = 2 + bytesPerValue w * n) ∨
      (bs.getD s.h 0#8 ∈ [0x05#8, 0x06#8, 0x0F#8, 0x10#8] ∧ s.h + 1 ≤ s.bodyOf bs .txb ∧ pdu = 5) ∨
      (bs.getD s.h 0#8 = 0x07#8 ∧ s.h + 1 ≤ s.bodyOf bs .txb ∧ pdu = 2)) →
    exec (.predict w) s = .next
      { s with r0 := BitVec.ofNat 32 (s.h + pdu + s.ck), r1 := BitVec.ofNat 32 pdu, sta := .ok }) ∧
  (∀ (s : State) (w : Byte), 9 < w.toNat → exec (.predict w) s = .next { s with sta := .illegalCmd }) ∧
  (∀ (s : State) (w : Byte), w.toNat ≤ 9 → s.bodyLen .txb < s.h + 1 →
    exec (.predict w) s = .next { s with sta := .sequence }) ∧
  (∀ (s : State) (w : Byte) (bs : List Byte), w.toNat ≤ 9 → s.Holds .txb bs → s.h + 1 ≤ s.bodyOf bs .txb →
    (bs.getD s.h 0#8 = 0x11#8 → exec (.predict w) s = .next { s with sta := .undefinedLength }) ∧
    (¬PlainRequest (bs.getD s.h 0#8) → ¬MultiRequest (bs.getD s.h 0#8) → ¬BareRequest (bs.getD s.h 0#8) →
      exec (.predict w) s = .next { s with sta := .invalidData }) ∧
    (bs.getD s.h 0#8 ∈ [0x01#8, 0x02#8, 0x03#8, 0x04#8] → s.bodyOf bs .txb < s.h + 5 →
      exec (.predict w) s = .next { s with sta := .invalidData }))

/-- 42_predict_decode R163: the fields DECREQ delivers from a buffer that holds `bs`, for each form of request. -/
def Obligations.DecreqCommand : Prop :=
  (∀ (s : State) (b : Byte) (buf : Buffer) (bs : List Byte),
    Selects b buf → ¬s.RxBusy buf → (buf = .rxb → s.rxState = .complete) → s.Holds buf bs →
    (PlainRequest (bs.getD s.h 0#8) ∧ s.h + 5 ≤ s.bodyOf bs buf ∨
      MultiRequest (bs.getD s.h 0#8) ∧ s.h + 6 ≤ s.bodyOf bs buf ∨
      ¬PlainRequest (bs.getD s.h 0#8) ∧ ¬MultiRequest (bs.getD s.h 0#8) ∧ s.h + 1 ≤ s.bodyOf bs buf) →
    exec (.decreq b) s = .next
      { s with
        r0 := (bs.getD (s.h - 1) 0#8).setWidth 32,
        r1 := (bs.getD s.h 0#8).setWidth 32,
        r2 := if 4 ≤ extraHeader (bs.getD s.h 0#8) then (field16 bs (s.h + 1)).setWidth 32 else 0#32,
        r3 := if 4 ≤ extraHeader (bs.getD s.h 0#8) then (field16 bs (s.h + 3)).setWidth 32 else 0#32,
        r4 := if s.mode = .tcp then (field16 bs 0).setWidth 32 else 0#32,
        r5 := if s.mode = .tcp then (field16 bs 4).setWidth 32 else 0#32,
        r6 := if extraHeader (bs.getD s.h 0#8) = 5 then (bs.getD (s.h + 5) 0#8).setWidth 32 else 0#32,
        sta := .ok }) ∧
  (∀ (s : State) (b : Byte), 1 < b.toNat → exec (.decreq b) s = .next { s with sta := .illegalCmd }) ∧
  (∀ s : State, s.receiving = true → exec (.decreq 1#8) s = .next { s with sta := .busy }) ∧
  (∀ s : State, s.receiving = false → s.rxState ≠ .complete →
    exec (.decreq 1#8) s = .next { s with sta := .sequence }) ∧
  (∀ (s : State) (b : Byte) (buf : Buffer) (bs : List Byte),
    Selects b buf → ¬s.RxBusy buf → (buf = .rxb → s.rxState = .complete) → s.Holds buf bs →
    (s.bodyOf bs buf < s.h + 1 ∨
      PlainRequest (bs.getD s.h 0#8) ∧ s.bodyOf bs buf < s.h + 5 ∨
      MultiRequest (bs.getD s.h 0#8) ∧ s.bodyOf bs buf < s.h + 6) →
    exec (.decreq b) s = .next { s with sta := .invalidData })

/-- 42_predict_decode R164: the fields DECRSP delivers from the response `rs`, and the comparison of its identity with
the request `qs`. -/
def Obligations.DecrspCommand : Prop :=
  (∀ (s : State) (rs qs : List Byte),
    s.rxState = .complete → s.Holds .rxb rs → s.Holds .txb qs → s.h + 1 ≤ rs.length → s.h + 1 ≤ s.bodyOf qs .txb →
    exec .decrsp s = .next
      { s with
        r0 := (rs.getD (s.h - 1) 0#8).setWidth 32,
        r1 := (rs.getD s.h 0#8).setWidth 32,
        r2 := if 0x80 ≤ (rs.getD s.h 0#8).toNat then 1#32 else 0#32,
        r3 := if s.h + 2 ≤ s.bodyOf rs .rxb then (rs.getD (s.h + 1) 0#8).setWidth 32 else 0#32,
        r4 := if s.mode = .tcp then (field16 rs 0).setWidth 32 else 0#32,
        r5 := if s.mode = .tcp then (field16 rs 4).setWidth 32 else 0#32,
        r6 := BitVec.ofNat 32
          ((if rs.getD (s.h - 1) 0#8 = qs.getD (s.h - 1) 0#8 then 1 else 0) +
            (if s.mode = .rtu ∨ field16 rs 0 = field16 qs 0 then 2 else 0) +
            (if (rs.getD s.h 0#8).toNat % 128 = (qs.getD s.h 0#8).toNat then 4 else 0)),
        sta := .ok }) ∧
  (∀ s : State, s.receiving = true → exec .decrsp s = .next { s with sta := .busy }) ∧
  (∀ s : State, s.receiving = false → (s.rxState ≠ .complete ∨ s.bodyLen .txb < s.h + 1) →
    exec .decrsp s = .next { s with sta := .sequence })

/-- 42_predict_decode R166, R165: CHKQTY. The exception shape comes first, then the request's class, then
UNSUPPORTED_WIDTH, then the byte count; the want may exceed 255 and then never matches. -/
def Obligations.ChkqtyCommand : Prop :=
  (∀ (s : State) (w : Byte) (rs : List Byte), w.toNat ≤ 9 → s.rxState = .complete → s.h + 1 ≤ s.bodyLen .txb →
    s.rxResult = .remoteException → s.Holds .rxb rs → s.h + 2 ≤ rs.length →
    exec (.chkqty w) s = .next { s with r0 := (rs.getD (s.h + 1) 0#8).setWidth 32, sta := .remoteException }) ∧
  (∀ (s : State) (w : Byte) (rs qs : List Byte) (n : Nat), w.toNat ≤ 9 → s.rxState = .complete →
    s.rxResult ≠ .remoteException → s.Holds .rxb rs → s.Holds .txb qs → s.h + 1 ≤ s.bodyOf qs .txb →
    n = (field16 qs (s.h + 3)).toNat →
    (qs.getD s.h 0#8 ∉ [0x01#8, 0x02#8, 0x03#8, 0x04#8] →
      exec (.chkqty w) s = .next { s with r0 := 0#32, sta := .ok }) ∧
    (qs.getD s.h 0#8 ∈ [0x01#8, 0x02#8, 0x03#8, 0x04#8] → s.bodyOf qs .txb < s.h + 5 →
      exec (.chkqty w) s = .next { s with sta := .invalidData }) ∧
    (qs.getD s.h 0#8 ∈ [0x01#8, 0x02#8] → s.h + 5 ≤ s.bodyOf qs .txb →
      exec (.chkqty w) s = .next
        (if s.h + 2 ≤ s.bodyOf rs .rxb ∧ (rs.getD (s.h + 1) 0#8).toNat = (n + 7) / 8
          then { s with r0 := BitVec.ofNat 32 n, sta := .ok } else { s with sta := .invalidData })) ∧
    (qs.getD s.h 0#8 ∈ [0x03#8, 0x04#8] → s.h + 5 ≤ s.bodyOf qs .txb →
      exec (.chkqty w) s = .next
        (if 6 ≤ w.toNat then { s with sta := .unsupportedWidth }
          else if s.h + 2 ≤ s.bodyOf rs .rxb ∧ (rs.getD (s.h + 1) 0#8).toNat = bytesPerValue w * n
          then { s with r0 := BitVec.ofNat 32 n, sta := .ok } else { s with sta := .invalidData }))) ∧
  (∀ (s : State) (w : Byte), 9 < w.toNat → exec (.chkqty w) s = .next { s with sta := .illegalCmd }) ∧
  (∀ (s : State) (w : Byte), w.toNat ≤ 9 → s.receiving = true → exec (.chkqty w) s = .next { s with sta := .busy }) ∧
  (∀ (s : State) (w : Byte), w.toNat ≤ 9 → s.receiving = false →
    (s.rxState ≠ .complete ∨ s.bodyLen .txb < s.h + 1) → exec (.chkqty w) s = .next { s with sta := .sequence })

/-- 42_predict_decode R167, R168: the value UNPACK delivers, per width (big-endian, I8 and I16 sign-extended, U8 and
U16 zero-extended, I32 and U32 as assembled), and what UNPACK refuses, in the rule's order. -/
def Obligations.UnpackCommand : Prop :=
  (∀ (s : State) (w : Byte) (idx : Half) (rs : List Byte) (off : Nat),
    w.toNat ≤ 5 → s.rxState = .complete → s.rxResult = .ok → s.Holds .rxb rs → s.h + 2 ≤ s.bodyOf rs .rxb →
    bytesPerValue w * (idx.toNat + 1) ≤ (rs.getD (s.h + 1) 0#8).toNat →
    off = s.h + 2 + bytesPerValue w * idx.toNat → off + bytesPerValue w ≤ s.bodyOf rs .rxb →
    exec (.unpack w idx) s = .next
      { s with
        r0 :=
          if w = 0#8 then (rs.getD off 0#8).signExtend 32
          else if w = 1#8 then (rs.getD off 0#8).setWidth 32
          else if w = 2#8 then (field16 rs off).signExtend 32
          else if w = 3#8 then (field16 rs off).setWidth 32
          else field16 rs off ++ field16 rs (off + 2),
        sta := .ok }) ∧
  (∀ (s : State) (w : Byte) (idx : Half), 9 < w.toNat → exec (.unpack w idx) s = .next { s with sta := .illegalCmd }) ∧
  (∀ (s : State) (w : Byte) (idx : Half), w.toNat ≤ 9 → s.receiving = true →
    exec (.unpack w idx) s = .next { s with sta := .busy }) ∧
  (∀ (s : State) (w : Byte) (idx : Half), w.toNat ≤ 9 → s.receiving = false →
    (s.rxState ≠ .complete ∨ s.rxResult ≠ .ok) → exec (.unpack w idx) s = .next { s with sta := .sequence }) ∧
  (∀ (s : State) (w : Byte) (idx : Half), 6 ≤ w.toNat → w.toNat ≤ 9 → s.rxState = .complete → s.rxResult = .ok →
    exec (.unpack w idx) s = .next { s with sta := .unsupportedWidth }) ∧
  (∀ (s : State) (w : Byte) (idx : Half) (rs : List Byte), w.toNat ≤ 5 → s.rxState = .complete → s.rxResult = .ok →
    s.Holds .rxb rs →
    (s.bodyOf rs .rxb < s.h + 2 ∨ (rs.getD (s.h + 1) 0#8).toNat < bytesPerValue w * (idx.toNat + 1) ∨
      s.bodyOf rs .rxb < s.h + 2 + bytesPerValue w * idx.toNat + bytesPerValue w) →
    exec (.unpack w idx) s = .next { s with sta := .range })

/-! ## The receiver -/

/-- 43_receiver R193: RXFIX arms a fixed-length receive, or ends at once `FAULTED`/`INVALID_DATA` where the operand is
outside `EXCLEN(mode)` to `MAXADU(mode)`. -/
def Obligations.RxfixCommand : Prop :=
  (∀ (s : State) (e : Word), s.receiving = false → Config.excLen s.mode ≤ e.toNat → e.toNat ≤ s.maxAdu →
    exec (.rxfix e) s = .next
      { s with
        rxKind := .fixed, rxb := [], rxLen := 0#9, rxTotal := toLen e.toNat, rxNeed := toLen e.toNat,
        rxKnown := true, rxState := .awaitRemainder, rxResult := .noOutcome, rxTimer := s.tResp,
        rxReload := s.tResp, sta := .ok }) ∧
  (∀ (s : State) (e : Word), s.receiving = false → (e.toNat < Config.excLen s.mode ∨ s.maxAdu < e.toNat) →
    exec (.rxfix e) s = .next
      { s with
        rxState := .faulted, rxResult := .invalidData, rxb := [], rxLen := 0#9, rxNeed := 0#9, rxTotal := 0#9,
        rxKnown := false, rxKind := .fixed, rxTimer := 0#32, rxReload := 0#32, sta := .invalidData }) ∧
  (∀ (s : State) (e : Word), s.receiving = true → exec (.rxfix e) s = .next { s with sta := .busy })

/-- 43_receiver R194: RXUND arms the header and the function byte, with the first-byte time-out. -/
def Obligations.RxundCommand : Prop :=
  (∀ s : State, s.receiving = false →
    exec .rxund s = .next
      { s with
        rxKind := .undefinedLength, rxb := [], rxLen := 0#9, rxTotal := toLen (s.h + 1), rxNeed := toLen (s.h + 1),
        rxKnown := false, rxState := .awaitFunction, rxResult := .noOutcome, rxTimer := s.tFirst,
        rxReload := s.tFirst, sta := .ok }) ∧
  (∀ s : State, s.receiving = true → exec .rxund s = .next { s with sta := .busy })

/-- 43_receiver R202: a byte inside a segment (EV.BYTE, or a wire function code, log entry 4) is stored and re-arms
the wait with `t_eof`. -/
def Obligations.ByteInsideSegment : Prop :=
  ∀ (i : Instr) (d : Byte) (s : State) (bs : List Byte),
    brings i = some d → s.receiving = true → s.Holds .rxb bs → bs.length < 260 → 2 ≤ s.rxNeed.toNat →
    ∃ t, exec i s = .next t ∧
      t = { s with
            rxb := t.rxb, rxLen := toLen (bs.length + 1), rxNeed := toLen (s.rxNeed.toNat - 1), rxTimer := s.tEof,
            rxReload := s.tEof } ∧
      t.Holds .rxb (bs ++ [d])

/-- 43_receiver R203, 30_encoding R90: the function byte arrives (EV.BYTE, or a wire function code, log
entry 4). Where its extra header is not empty the receiver awaits that many bytes more; where it is empty (read exception status and codes outside the enumeration) the total is
known at once: two checksum bytes in RTU mode, nothing in TCP mode, where the frame completes in the same event. -/
def Obligations.FunctionByteArrives : Prop :=
  ∀ (i : Instr) (d : Byte) (s : State) (bs : List Byte),
    brings i = some d → s.rxState = .awaitFunction → s.rxNeed = 1#9 → s.Holds .rxb bs → bs.length = s.h →
    s.rxTotal.toNat = s.h + 1 →
    (0 < extraHeader d → ∃ t, exec i s = .next t ∧
      t = { s with
            rxb := t.rxb, rxLen := toLen (s.h + 1), rxNeed := toLen (extraHeader d),
            rxTotal := toLen (s.h + 1 + extraHeader d), rxState := .awaitRemainder, rxKnown := false,
            rxTimer := s.tEof, rxReload := s.tEof } ∧
      t.Holds .rxb (bs ++ [d])) ∧
    (extraHeader d = 0 → s.mode = .rtu → ∃ t, exec i s = .next t ∧
      t = { s with
            rxb := t.rxb, rxLen := 2#9, rxNeed := 2#9, rxTotal := 4#9, rxState := .awaitRemainder, rxKnown := true,
            rxTimer := s.tEof, rxReload := s.tEof } ∧
      t.Holds .rxb (bs ++ [d])) ∧
    (extraHeader d = 0 → s.mode = .tcp → ∃ t, exec i s = .next t ∧
      t = { s with
            rxb := t.rxb, rxLen := 8#9, rxNeed := 0#9, rxTotal := 8#9, rxState := .complete, rxResult := .ok,
            rxKnown := true, rxTimer := 0#32, rxReload := s.tEof } ∧
      t.Holds .rxb (bs ++ [d]))

/-- 43_receiver R203, 30_encoding R91: the last extra header byte arrives (EV.BYTE, or a wire function code, log entry
4) and the total becomes known: above `MAXADU(mode)` the receive faults with INVALID_DATA and keeps the bytes; otherwise
the receiver awaits payload and checksum, or, in TCP mode with no payload, the frame completes in the same event. -/
def Obligations.ExtraHeaderCompletes : Prop :=
  ∀ (i : Instr) (d : Byte) (s : State) (bs : List Byte) (p total : Nat),
    brings i = some d → s.rxState = .awaitRemainder → s.rxKnown = false → s.rxNeed = 1#9 → s.Holds .rxb bs →
    s.h + 1 ≤ bs.length → bs.length = s.h + extraHeader (bs.getD s.h 0#8) → s.rxTotal.toNat = bs.length + 1 →
    p = trailingPayload s.h (bs ++ [d]) + s.ck → total = bs.length + 1 + p →
    (s.maxAdu < total → ∃ t, exec i s = .next t ∧
      t = { s with
            rxb := t.rxb, rxLen := toLen (bs.length + 1), rxNeed := 0#9, rxTotal := toLen total,
            rxState := .faulted, rxResult := .invalidData, rxTimer := 0#32, rxReload := s.tEof } ∧
      t.Holds .rxb (bs ++ [d])) ∧
    (total ≤ s.maxAdu → 0 < p → ∃ t, exec i s = .next t ∧
      t = { s with
            rxb := t.rxb, rxLen := toLen (bs.length + 1), rxNeed := toLen p, rxTotal := toLen total,
            rxKnown := true, rxTimer := s.tEof, rxReload := s.tEof } ∧
      t.Holds .rxb (bs ++ [d])) ∧
    (total ≤ s.maxAdu → p = 0 → ∃ t, exec i s = .next t ∧
      t = { s with
            rxb := t.rxb, rxLen := toLen (bs.length + 1), rxNeed := 0#9, rxTotal := toLen (bs.length + 1),
            rxState := .complete,
            rxResult := (if 0x80 ≤ (bs.getD s.h 0#8).toNat then .remoteException else .ok),
            rxKnown := true, rxTimer := 0#32, rxReload := s.tEof } ∧
      t.Holds .rxb (bs ++ [d]))

/-- 43_receiver R204: the last byte of a frame of known length arrives (EV.BYTE, or a wire function code, log entry 4):
COMPLETE with OK or REMOTE_EXCEPTION by bit 7 of the function byte, or, in RTU mode with a bad checksum, FAULTED with
INVALID_CRC and the bytes discarded. -/
def Obligations.LastByteArrives : Prop :=
  ∀ (i : Instr) (d : Byte) (s : State) (bs : List Byte),
    brings i = some d → s.rxState = .awaitRemainder → s.rxKnown = true → s.rxNeed = 1#9 → s.Holds .rxb bs →
    s.h + s.ck ≤ bs.length → bs.length < 260 →
    (FrameAccepted s.mode (bs ++ [d]) → ∃ t, exec i s = .next t ∧
      t = { s with
            rxb := t.rxb, rxLen := toLen (bs.length + 1), rxNeed := 0#9, rxTotal := toLen (bs.length + 1),
            rxState := .complete,
            rxResult := (if 0x80 ≤ ((bs ++ [d]).getD s.h 0#8).toNat then .remoteException else .ok),
            rxTimer := 0#32, rxReload := s.tEof } ∧
      t.Holds .rxb (bs ++ [d])) ∧
    (¬FrameAccepted s.mode (bs ++ [d]) → exec i s = .next
      { s with
        rxb := [], rxLen := 0#9, rxNeed := 0#9, rxState := .faulted, rxResult := .invalidCrc, rxTimer := 0#32,
        rxReload := s.tEof })

/-- 43_receiver R204: `finish()`, the final step of a receive whose bytes are in RXB: in RTU mode a bad checksum faults
with INVALID_CRC and discards the bytes; else the frame is COMPLETE, with REMOTE_EXCEPTION where bit 7 of its function
byte is set; in TCP mode length alone decides. -/
def Obligations.FinishChecksTheFrame : Prop :=
  ∀ (s : State) (bs : List Byte), s.Holds .rxb bs → s.h + 1 + s.ck ≤ bs.length →
    (s.mode = .rtu → crc16 (bs.take (bs.length - 2)) ≠ field16 bs (bs.length - 2) →
      ∃ t, s.finish = .next t ∧
        t = { s with rxb := t.rxb, rxLen := 0#9, rxState := .faulted, rxResult := .invalidCrc, rxTimer := 0#32 }) ∧
    (s.mode = .tcp ∨ crc16 (bs.take (bs.length - 2)) = field16 bs (bs.length - 2) →
      s.finish = .next
        { s with
          rxState := .complete,
          rxResult := (if 0x80 ≤ (bs.getD s.h 0#8).toNat then .remoteException else .ok),
          rxTimer := 0#32, rxNeed := 0#9, rxTotal := s.rxLen })

/-- 43_receiver R205, R206, R209, R210: EV.CLOSED and EV.FAIL fault the receive and keep its bytes; EV.INTR re-arms the
wait and changes nothing else. Outside the receiving states none of the three is enabled (R195): that their meaning,
called there, answers the refusal `eventNotEnabled` is the model's (DEDUCED, log entry 5). -/
def Obligations.TransportConditions : Prop :=
  (∀ s : State, s.receiving = true →
    exec .evClosed s = .next { s with rxState := .faulted, rxResult := .transportClosed, rxTimer := 0#32 } ∧
    exec .evFail s = .next { s with rxState := .faulted, rxResult := .transportFailure, rxTimer := 0#32 } ∧
    exec .evIntr s = .next { s with rxTimer := s.rxReload }) ∧
  (∀ (s : State) (i : Instr), s.receiving = false → i ∈ [Instr.evClosed, .evFail, .evIntr] →
    exec i s = .refused .eventNotEnabled)

/-- 43_receiver R207: TICK does nothing when not receiving, counts the wait down while more than one tick is left, and
the wait, armed with `T` and not re-armed, ends at the `T`-th TICK (a wait of 0 at the first): that TICK does what a TICK
does with one tick left. -/
def Obligations.WaitEndsAtTheLastTick : Prop :=
  (∀ s : State, s.receiving = false → exec .tick s = .next s) ∧
  (∀ s : State, s.receiving = true → 2 ≤ s.rxTimer.toNat →
    exec .tick s = .next { s with rxTimer := BitVec.ofNat 32 (s.rxTimer.toNat - 1) }) ∧
  (∀ (s : State) (n : Nat), s.receiving = true → n < max s.rxTimer.toNat 1 →
    runAll (List.replicate n .tick) s = .next { s with rxTimer := BitVec.ofNat 32 (s.rxTimer.toNat - n) }) ∧
  (∀ s : State, s.receiving = true →
    runAll (List.replicate (max s.rxTimer.toNat 1) .tick) s = exec .tick { s with rxTimer := 1#32 })

/-- 43_receiver R208: the wait expires. In fixed-length mode with exactly an exception frame's bytes: a bad checksum is
INVALID_CRC, a set bit 7 completes as a remote exception, else TIMEOUT; in every other case TIMEOUT. -/
def Obligations.TimeoutOutcomes : Prop :=
  (∀ (s : State) (bs : List Byte), s.receiving = true → s.rxTimer.toNat ≤ 1 → s.rxKind = .fixed → s.Holds .rxb bs →
    bs.length = Config.excLen s.mode →
    exec .tick s = .next
      (if s.mode = .rtu ∧ crc16 (bs.take 3) ≠ field16 bs 3 then
        { s with rxState := .faulted, rxResult := .invalidCrc, rxTimer := 0#32, rxLen := 0#9, rxb := [] }
      else if 0x80 ≤ (bs.getD s.h 0#8).toNat then
        { s with
          rxState := .complete, rxResult := .remoteException, rxTimer := 0#32, rxNeed := 0#9, rxTotal := s.rxLen }
      else { s with rxState := .faulted, rxResult := .timeout, rxTimer := 0#32 })) ∧
  (∀ s : State, s.receiving = true → s.rxTimer.toNat ≤ 1 →
    (s.rxKind = .undefinedLength ∨ s.rxLen.toNat ≠ Config.excLen s.mode) →
    exec .tick s = .next { s with rxState := .faulted, rxResult := .timeout, rxTimer := 0#32 })

/-- 70_reset_and_hazards R280, 10_state R39: RESET leaves every piece of the block's state at its reset value, whatever
went before. The two open parameters T_EOF_RESET and T_RESP_RESET are the model's opaque constants (DESIGN CHOICE, log
entry 2). -/
def Obligations.ResetLeavesResetValues : Prop :=
  ∀ s : State, ∃ t, exec .reset s = .next t ∧
    t.r0 = 0#32 ∧ t.r1 = 0#32 ∧ t.r2 = 0#32 ∧ t.r3 = 0#32 ∧ t.r4 = 0#32 ∧ t.r5 = 0#32 ∧ t.r6 = 0#32 ∧
    t.r7 = 0#32 ∧ t.sta = .ok ∧ t.mode = .rtu ∧ t.tFirst = 5000#32 ∧ t.tEof = Config.tEofReset ∧
    t.tResp = Config.tRespReset ∧ t.tid = 0#16 ∧ t.txLen = 0#9 ∧ t.txFinal = false ∧ t.Holds .txb [] ∧
    t.rxLen = 0#9 ∧ t.rxNeed = 0#9 ∧ t.rxTotal = 0#9 ∧ t.rxKind = .fixed ∧ t.rxKnown = false ∧ t.Holds .rxb [] ∧
    t.rxState = .idle ∧ t.rxResult = .noOutcome ∧ t.rxTimer = 0#32 ∧ t.rxReload = 0#32

/-- 70_reset_and_hazards R297, 43_receiver R210: a transport that interrupts more often than once per `rx_reload` ticks
keeps a silent receive alive for ever. With an interrupt after every `k` ticks, fewer than the wait has, the run has no
end: after each round of ticks and interrupt the state is the same, and inside a round only the wait has gone down. That
the environment repeats its deliveries is held by the model's own field `later` (log entry 1). -/
def Obligations.InterruptsKeepAReceiveAlive : Prop :=
  ∀ (s : State) (k : Nat), s.receiving = true → s.inbox = [] →
    s.later = .again (List.replicate k .tick ++ [.transport 0x300#10]) →
    s.rxTimer = s.rxReload → k < max s.rxReload.toNat 1 →
    ∀ m j : Nat, j ≤ k → ∃ ps, runSteps (m * (k + 1) + j) s = .next
      { s with inbox := ps, rxTimer := BitVec.ofNat 32 (s.rxReload.toNat - j) } ∧ (j = 0 → ps = [])

/-! ## Whole receives -/

/-- 43_receiver R193, R202, R204: a fixed-length receive of exactly the expected bytes ends COMPLETE with the frame in
RXB, byte for byte, or, in RTU mode with a bad checksum, FAULTED with INVALID_CRC and no byte; for every frame of every
legal length, in both modes. -/
def Obligations.FixedLengthReceiveOfWholeFrame : Prop :=
  ∀ (s : State) (frame : List Byte),
    s.receiving = false → Config.excLen s.mode ≤ frame.length → frame.length ≤ s.maxAdu →
    ∃ t, runAll (.rxfix (BitVec.ofNat 32 frame.length) :: frame.map Instr.evByte) s = .next t ∧
      SameTx s t ∧ SameResults s t ∧ SameConfig s t ∧
      (FrameAccepted s.mode frame → t.rxState = .complete ∧ t.Holds .rxb frame ∧
        t.rxResult = (if 0x80 ≤ (frame.getD s.h 0#8).toNat then .remoteException else .ok)) ∧
      (¬FrameAccepted s.mode frame → t.rxState = .faulted ∧ t.rxResult = .invalidCrc ∧ t.Holds .rxb [])

/-- 43_receiver R194, R202, R203, R204, R214: an undefined-length receive finds the length of every frame whose length
its function byte and count byte give (every request of the enumeration but report slave id, the report-slave-id
response, every exception response) and ends with the frame in RXB, byte for byte. -/
def Obligations.UndefinedLengthReceiveOfWholeFrame : Prop :=
  ∀ (s : State) (frame : List Byte),
    s.receiving = false → frame.length ≤ s.maxAdu →
    s.h + 1 + extraHeader (frame.getD s.h 0#8) + s.ck ≤ frame.length →
    frame.length = s.h + 1 + extraHeader (frame.getD s.h 0#8) + trailingPayload s.h frame + s.ck →
    ∃ t, runAll (.rxund :: frame.map Instr.evByte) s = .next t ∧
      SameTx s t ∧ SameResults s t ∧ SameConfig s t ∧
      (FrameAccepted s.mode frame → t.rxState = .complete ∧ t.Holds .rxb frame ∧
        t.rxResult = (if 0x80 ≤ (frame.getD s.h 0#8).toNat then .remoteException else .ok)) ∧
      (¬FrameAccepted s.mode frame → t.rxState = .faulted ∧ t.rxResult = .invalidCrc ∧ t.Holds .rxb [])

/-! ## Invariants -/

/-- 70_reset_and_hazards R280: the invariant holds after reset. -/
def Obligations.ResetMeetsInvariant : Prop := State.reset.Inv

/-- 20_memory R60, R73: every step keeps both buffers canonical and inside their 260 bytes, from every state, reachable
or not, in which they are so and TXB is no longer than the mode allows (10_state R32). -/
def Obligations.StepKeepsBuffersCanonical : Prop :=
  ∀ s t : State, s.BuffersWf → s.txLen.toNat ≤ s.maxAdu → step s = .next t →
    t.BuffersWf ∧ t.txLen.toNat ≤ t.maxAdu

/-- 43_receiver R211, 10_state R32 to R37: every step keeps the invariant: exactly the valid bytes have values, the
receiver's lengths add up and stay within the mode's maximum, the outcome goes with the state, a complete RTU frame's
checksum is good. -/
def Obligations.StepKeepsInvariant : Prop :=
  ∀ s t : State, s.Inv → step s = .next t → t.Inv

/-- 60_exceptions R250, R257: the block has no trap. From the invariant no step faults: no byte without a value is
read and no index of 260 or above written (the two faults of log entry 3). -/
def Obligations.NoStepFaults : Prop :=
  ∀ (s : State) (r : Fault), s.Inv → step s ≠ .fault r

/-! ## Rules about the whole machine -/

/-- 00_scope R10, 60_exceptions R250, R257: a host command that ends with any status but OK (and but CHKQTY's
REMOTE_EXCEPTION and the receive RXFIX ends at once, 90_conflicts C14) changes `sta` and nothing else. -/
def Obligations.RefusalChangesOnlySta : Prop :=
  ∀ (i : Instr) (s t : State), i.port = .host → exec i s = .next t → t.sta ≠ .ok → t.sta ≠ .remoteException →
    (∀ e, i = .rxfix e → t.sta = .busy) → t = { s with sta := t.sta }

/-- 10_state R22: no instruction but RESET writes `r[7]`. -/
def Obligations.RegisterSevenIsNeverWritten : Prop :=
  ∀ (i : Instr) (s t : State), i ≠ .reset → exec i s = .next t → t.r7 = s.r7

/-- 10_state R31, 70_reset_and_hazards R295: `tid` moves only in a successful BLDREQ in TCP mode, by one, or at
RESET. -/
def Obligations.TidMovesOnlyInTcpRequests : Prop :=
  ∀ (i : Instr) (s t : State), i ≠ .reset → exec i s = .next t → t.tid ≠ s.tid →
    (∃ slave f addr count, i = .bldreq slave f addr count) ∧ s.mode = .tcp ∧ t.sta = .ok ∧ t.tid = s.tid + 1#16

/-- 20_memory R69, 10_state R22, R23: a transport event or a tick changes only the receiver's side; never `sta`, `r[]`,
the configuration or the outbound side. -/
def Obligations.EventsChangeOnlyTheReceiver : Prop :=
  ∀ (i : Instr) (s t : State), i.port = .transport ∨ i.port = .time → exec i s = .next t →
    SameResults s t ∧ t.sta = s.sta ∧ SameConfig s t ∧ SameTx s t ∧ SameEnvironment s t

/-- 60_exceptions R263, 20_memory R70: of the nineteen commands only RXFIX, RXUND and CFGW change anything of the
receiver; no command touches what the environment has yet to deliver. -/
def Obligations.HostCannotTouchTheReceiver : Prop :=
  ∀ (i : Instr) (s t : State), i.port = .host → exec i s = .next t →
    SameEnvironment s t ∧
    ((∀ e, i ≠ .rxfix e) → i ≠ .rxund → (∀ reg value, i ≠ .cfgw reg value) → SameRx s t)

/-- 20_memory R70: while receiving, every command that would read RXB or disturb the receive is refused with BUSY and no
other effect; the commands that touch only TXB, `tid` and `r[]`, and CFGR, run: each has a next state, and never BUSY. -/
def Obligations.ReceivingCommandsAreBusy : Prop :=
  (∀ (i : Instr) (s : State), s.receiving = true → i.wellFormed = true →
    ((∃ idx, i = .ldb 1#8 idx) ∨ (∃ len, i = .crc16 1#8 len) ∨ (∃ len, i = .crcv 1#8 len) ∨ i = .decreq 1#8 ∨
      i = .decrsp ∨ (∃ w, i = .chkqty w) ∨ (∃ w idx, i = .unpack w idx) ∨ (∃ f, i = .bldrsp f) ∨
      (∃ c, i = .bldexc c) ∨ (∃ e, i = .rxfix e) ∨ i = .rxund ∨ (∃ reg value, i = .cfgw reg value)) →
    exec i s = .next { s with sta := .busy }) ∧
  (∀ (i : Instr) (s : State) (bs : List Byte), s.receiving = true → s.Holds .txb bs →
    (i = .nop ∨ i = .txclr ∨ (∃ b, i = .pushb b) ∨ (∃ sl f a c, i = .bldreq sl f a c) ∨ i = .final ∨
      (∃ w, i = .predict w) ∨ (∃ idx, i = .ldb 0#8 idx) ∨ (∃ len, i = .crc16 0#8 len) ∨ (∃ len, i = .crcv 0#8 len) ∨
      i = .decreq 0#8 ∨ (∃ reg, i = .cfgr reg)) →
    ∃ t, exec i s = .next t ∧ t.sta ≠ .busy)

/-- 20_memory R70: the commands that touch only TXB, `tid` and `r[]` do the same whatever the receiver is doing: from
two states that differ only in the receiver's side they leave states that differ only there. -/
def Obligations.OutboundCommandsIgnoreTheReceiver : Prop :=
  ∀ (i : Instr) (s s' t : State),
    (i = .nop ∨ i = .txclr ∨ (∃ b, i = .pushb b) ∨ (∃ sl f a c, i = .bldreq sl f a c) ∨ i = .final ∨
      (∃ w, i = .predict w) ∨ (∃ idx, i = .ldb 0#8 idx) ∨ (∃ len, i = .crc16 0#8 len) ∨ (∃ len, i = .crcv 0#8 len) ∨
      i = .decreq 0#8) →
    SameResults s s' → s'.sta = s.sta → SameConfig s s' → SameTx s s' → exec i s = .next t →
    ∃ t', exec i s' = .next t' ∧ SameResults t t' ∧ t'.sta = t.sta ∧ SameConfig t t' ∧ SameTx t t'

/-- 43_receiver R190, 60_exceptions R258: nothing but RXFIX, RXUND, a write of MODE, or RESET leaves a terminal
receiver state or changes its outcome. -/
def Obligations.TerminalStateIsLeftOnlyByTheHost : Prop :=
  ∀ (i : Instr) (s t : State), s.rxState = .complete ∨ s.rxState = .faulted → exec i s = .next t →
    (t.rxState ≠ s.rxState ∨ t.rxResult ≠ s.rxResult) →
    (∃ e, i = .rxfix e) ∨ i = .rxund ∨ (∃ value, i = .cfgw 0#8 value) ∨ i = .reset

/-- 60_exceptions R251, 10_state R23: a command leaves in `sta` only the codes of commands, never TIMEOUT,
TRANSPORT_CLOSED, TRANSPORT_FAILURE or NONE. -/
def Obligations.CommandStatusCodes : Prop :=
  ∀ (i : Instr) (s t : State), i.port = .host → exec i s = .next t → t.sta.commandCode = true

/-- 43_receiver R195, 20_memory R67, 70_reset_and_hazards R299: a step takes exactly one delivery, and no transport item
while not receiving: those stay in the inbox, all of them and in order, whether they stood there or come again (log entry
1). -/
def Obligations.StepTakesOneDelivery : Prop :=
  ∀ s t : State, step s = .next t →
    (nextDelivery s.receiving s.inbox ≠ none →
      t.inbox.length + 1 = s.inbox.length ∧ t.later = s.later ∧
      (s.receiving = false → transportItems t.inbox = transportItems s.inbox)) ∧
    (∀ items, nextDelivery s.receiving s.inbox = none → s.later = .again items →
      t.inbox.length + 1 = s.inbox.length + items.length ∧ t.later = s.later ∧
      (s.receiving = false → transportItems t.inbox = transportItems s.inbox ++ transportItems items)) ∧
    (∀ n, nextDelivery s.receiving s.inbox = none → s.later = .free n →
      t.inbox = s.inbox ∧ t.later = .free (n + 1))
end

