-- ==== Sys2Proof/Laws/Memory.lean ====
section
/-!
SUPPORT. The laws of the buffer operations: a read after a write, the canonical form, and buffers as lists of bytes.
-/

namespace Sys2Proof.Machine

@[simp] theorem Memory.read_nil (i : Nat) : Memory.read [] i = none := rfl

theorem Memory.read_write (m : List Host.Cell) (i j : Nat) (v : Byte) :
    Memory.read (Memory.write m i v) j = if i = j then some v else Memory.read m j := by
  induction m with
  | nil => simp [Memory.write, Memory.read]
  | cons c m ih =>
    obtain ⟨a, x⟩ := c
    simp only [Memory.write]
    by_cases h1 : i < a
    · simp only [if_pos h1, Memory.read]
    · rw [if_neg h1]
      by_cases h2 : i = a
      · subst h2
        simp only [if_true, Memory.read]
        by_cases h3 : i = j <;> simp [h3]
      · rw [if_neg h2]
        simp only [Memory.read, ih]
        by_cases h3 : a = j
        · have : i ≠ j := by omega
          simp [h3, this]
        · simp [h3]

theorem Memory.read_write_same (m : List Host.Cell) (i : Nat) (v : Byte) :
    Memory.read (Memory.write m i v) i = some v := by simp [Memory.read_write]

theorem Memory.read_write_other (m : List Host.Cell) {i j : Nat} (v : Byte) (h : i ≠ j) :
    Memory.read (Memory.write m i v) j = Memory.read m j := by simp [Memory.read_write, h]

theorem Memory.risingFrom_mono {lo lo' : Nat} {m : List Host.Cell} (h : lo' ≤ lo)
    (hm : Memory.risingFrom lo m = true) : Memory.risingFrom lo' m = true := by
  cases m with
  | nil => rfl
  | cons c m =>
    simp only [Memory.risingFrom, Bool.and_eq_true, decide_eq_true_eq] at hm ⊢
    exact ⟨by omega, hm.2⟩

theorem Memory.risingFrom_write {m : List Host.Cell} {lo i : Nat} (v : Byte) (hi : lo ≤ i)
    (hm : Memory.risingFrom lo m = true) : Memory.risingFrom lo (Memory.write m i v) = true := by
  induction m generalizing lo with
  | nil => simp [Memory.write, Memory.risingFrom, hi]
  | cons c m ih =>
    obtain ⟨a, x⟩ := c
    simp only [Memory.risingFrom, Bool.and_eq_true, decide_eq_true_eq] at hm
    simp only [Memory.write]
    by_cases h1 : i < a
    · simp [Memory.risingFrom, hi, h1, hm.2]
    · rw [if_neg h1]
      by_cases h2 : i = a
      · subst h2
        simp [Memory.risingFrom, hi, hm.2]
      · rw [if_neg h2]
        simp [Memory.risingFrom, hm.1, ih (lo := a + 1) (by omega) hm.2]

theorem Memory.all_write {m : List Host.Cell} {i : Nat} {v : Byte} {p : Host.Cell → Bool}
    (hv : p (i, v) = true) (hm : m.all p = true) : (Memory.write m i v).all p = true := by
  induction m with
  | nil => simp [Memory.write, hv]
  | cons c m ih =>
    obtain ⟨a, x⟩ := c
    rw [List.all_cons, Bool.and_eq_true] at hm
    simp only [Memory.write]
    split
    · simp [hv, hm.1, hm.2]
    · split
      · simp [hv, hm.2]
      · simp [hm.1, ih hm.2]

/-- A write inside the buffer keeps the canonical form. -/
theorem Memory.wf_write {m : List Host.Cell} {i : Nat} (v : Byte) (hi : i < Config.bufSize)
    (hm : Memory.wf m = true) : Memory.wf (Memory.write m i v) = true := by
  simp only [Memory.wf, Bool.and_eq_true] at hm ⊢
  exact ⟨Memory.risingFrom_write v (Nat.zero_le i) hm.1, Memory.all_write (by simpa using hi) hm.2⟩

@[simp] theorem Memory.wf_nil : Memory.wf [] = true := rfl

theorem Memory.risingFrom_ofBytesAt (bs : List Byte) (i : Nat) :
    Memory.risingFrom i (Memory.ofBytesAt i bs) = true := by
  induction bs generalizing i with
  | nil => rfl
  | cons b bs ih => simp [Memory.ofBytesAt, Memory.risingFrom, ih (i + 1)]

theorem Memory.all_ofBytesAt (bs : List Byte) (i n : Nat) (h : i + bs.length ≤ n) :
    (Memory.ofBytesAt i bs).all (fun c => decide (c.1 < n)) = true := by
  induction bs generalizing i with
  | nil => rfl
  | cons b bs ih =>
    simp only [List.length_cons] at h
    rw [Memory.ofBytesAt, List.all_cons, ih (i + 1) (by omega)]
    simp
    omega

/-- A frame that fits the buffer is a canonical buffer. -/
theorem Memory.wf_ofBytes {bs : List Byte} (h : bs.length ≤ Config.bufSize) :
    Memory.wf (Memory.ofBytes bs) = true := by
  rw [Memory.wf, Memory.ofBytes, Memory.risingFrom_ofBytesAt, Memory.all_ofBytesAt bs 0 _ (by omega)]
  rfl

theorem Memory.read_ofBytesAt (bs : List Byte) (i j : Nat) :
    Memory.read (Memory.ofBytesAt i bs) j = if i ≤ j then bs[j - i]? else none := by
  induction bs generalizing i with
  | nil => simp [Memory.ofBytesAt]
  | cons b bs ih =>
    simp only [Memory.ofBytesAt, Memory.read, ih (i + 1)]
    by_cases h1 : i = j
    · subst h1; simp
    · rw [if_neg h1]
      by_cases h2 : i + 1 ≤ j
      · have h3 : i ≤ j := by omega
        have h4 : j - i = (j - (i + 1)) + 1 := by omega
        rw [if_pos h2, if_pos h3, h4, List.getElem?_cons_succ]
      · rw [if_neg h2, if_neg (by omega)]

/-- A buffer built from a frame holds the frame. -/
theorem Memory.holds_ofBytes (bs : List Byte) : Memory.Holds (Memory.ofBytes bs) bs := by
  intro i
  simp [Memory.ofBytes, Memory.read_ofBytesAt]

@[simp] theorem Memory.holds_nil : Memory.Holds [] [] := fun _ => rfl

/-- Writing at the end appends. -/
theorem Memory.holds_append {m : List Host.Cell} {bs : List Byte} (v : Byte) (h : Memory.Holds m bs) :
    Memory.Holds (Memory.write m bs.length v) (bs ++ [v]) := by
  intro i
  rw [Memory.read_write, h i]
  by_cases h1 : bs.length = i
  · subst h1; simp
  · rw [if_neg h1]
    rcases Nat.lt_or_gt_of_ne h1 with h2 | h2
    · rw [List.getElem?_eq_none (by omega), List.getElem?_eq_none (by simp; omega)]
    · rw [List.getElem?_append_left h2]

/-- Writing inside replaces one byte. -/
theorem Memory.holds_set {m : List Host.Cell} {bs : List Byte} {i : Nat} (v : Byte) (hi : i < bs.length)
    (h : Memory.Holds m bs) : Memory.Holds (Memory.write m i v) (bs.set i v) := by
  intro j
  rw [Memory.read_write, h j, List.getElem?_set]
  by_cases h1 : i = j
  · subst h1; simp [hi]
  · simp [h1]

/-- A list of bytes is what a filled buffer holds. -/
theorem Memory.Holds.filled {m : List Host.Cell} {bs : List Byte} (h : Memory.Holds m bs) :
    Memory.Filled m bs.length := by
  intro i
  rw [h i]
  by_cases h1 : i < bs.length
  · simp [h1]
  · simp [h1]

theorem Memory.readRange_holds {m : List Host.Cell} {bs : List Byte} (h : Memory.Holds m bs) (i n : Nat)
    (hn : i + n ≤ bs.length) : Memory.readRange m i n = some ((bs.drop i).take n) := by
  induction n generalizing i with
  | zero => simp [Memory.readRange]
  | succ n ih =>
    have h1 : i < bs.length := by omega
    rw [Memory.readRange, h i, ih (i + 1) (by omega), List.getElem?_eq_getElem h1,
      List.drop_eq_getElem_cons h1, List.take_succ_cons]

/-- Every filled buffer holds some list of bytes, of the length it is filled to. -/
theorem Memory.Filled.holds {m : List Host.Cell} {n : Nat} (h : Memory.Filled m n) :
    ∃ bs : List Byte, bs.length = n ∧ Memory.Holds m bs := by
  refine ⟨(List.range n).map fun i => (Memory.read m i).getD 0#8, by simp, fun i => ?_⟩
  have hi := h i
  by_cases h1 : i < n
  · rw [decide_eq_true h1, Option.isSome_iff_exists] at hi
    obtain ⟨a, ha⟩ := hi
    simp [h1, ha]
  · rw [decide_eq_false h1, Option.isSome_eq_false_iff, Option.isNone_iff_eq_none] at hi
    simp [h1, hi]

end Sys2Proof.Machine
end

