-- ==== Sys2Proof/Laws/State.lean ====
section
/-!
SUPPORT. What each named update of the state does to each field: one lemma per field per update, true by rfl, so that
no proof unfolds a record update.
-/

namespace Sys2Proof.Machine

section
variable (s : State) (c : Status)

@[simp] theorem State.done_r0 : (s.done c).r0 = s.r0 := rfl
@[simp] theorem State.done_r1 : (s.done c).r1 = s.r1 := rfl
@[simp] theorem State.done_r2 : (s.done c).r2 = s.r2 := rfl
@[simp] theorem State.done_r3 : (s.done c).r3 = s.r3 := rfl
@[simp] theorem State.done_r4 : (s.done c).r4 = s.r4 := rfl
@[simp] theorem State.done_r5 : (s.done c).r5 = s.r5 := rfl
@[simp] theorem State.done_r6 : (s.done c).r6 = s.r6 := rfl
@[simp] theorem State.done_r7 : (s.done c).r7 = s.r7 := rfl
@[simp] theorem State.done_sta : (s.done c).sta = c := rfl
@[simp] theorem State.done_mode : (s.done c).mode = s.mode := rfl
@[simp] theorem State.done_tFirst : (s.done c).tFirst = s.tFirst := rfl
@[simp] theorem State.done_tEof : (s.done c).tEof = s.tEof := rfl
@[simp] theorem State.done_tResp : (s.done c).tResp = s.tResp := rfl
@[simp] theorem State.done_tid : (s.done c).tid = s.tid := rfl
@[simp] theorem State.done_txb : (s.done c).txb = s.txb := rfl
@[simp] theorem State.done_txLen : (s.done c).txLen = s.txLen := rfl
@[simp] theorem State.done_txFinal : (s.done c).txFinal = s.txFinal := rfl
@[simp] theorem State.done_rxb : (s.done c).rxb = s.rxb := rfl
@[simp] theorem State.done_rxLen : (s.done c).rxLen = s.rxLen := rfl
@[simp] theorem State.done_rxState : (s.done c).rxState = s.rxState := rfl
@[simp] theorem State.done_rxResult : (s.done c).rxResult = s.rxResult := rfl
@[simp] theorem State.done_rxKind : (s.done c).rxKind = s.rxKind := rfl
@[simp] theorem State.done_rxKnown : (s.done c).rxKnown = s.rxKnown := rfl
@[simp] theorem State.done_rxNeed : (s.done c).rxNeed = s.rxNeed := rfl
@[simp] theorem State.done_rxTotal : (s.done c).rxTotal = s.rxTotal := rfl
@[simp] theorem State.done_rxTimer : (s.done c).rxTimer = s.rxTimer := rfl
@[simp] theorem State.done_rxReload : (s.done c).rxReload = s.rxReload := rfl
@[simp] theorem State.done_inbox : (s.done c).inbox = s.inbox := rfl
@[simp] theorem State.done_later : (s.done c).later = s.later := rfl

end

section
variable (s : State) (v : Word)

@[simp] theorem State.setR0_r0 : (s.setR0 v).r0 = v := rfl
@[simp] theorem State.setR0_r1 : (s.setR0 v).r1 = s.r1 := rfl
@[simp] theorem State.setR0_r2 : (s.setR0 v).r2 = s.r2 := rfl
@[simp] theorem State.setR0_r3 : (s.setR0 v).r3 = s.r3 := rfl
@[simp] theorem State.setR0_r4 : (s.setR0 v).r4 = s.r4 := rfl
@[simp] theorem State.setR0_r5 : (s.setR0 v).r5 = s.r5 := rfl
@[simp] theorem State.setR0_r6 : (s.setR0 v).r6 = s.r6 := rfl
@[simp] theorem State.setR0_r7 : (s.setR0 v).r7 = s.r7 := rfl
@[simp] theorem State.setR0_sta : (s.setR0 v).sta = s.sta := rfl
@[simp] theorem State.setR0_mode : (s.setR0 v).mode = s.mode := rfl
@[simp] theorem State.setR0_tFirst : (s.setR0 v).tFirst = s.tFirst := rfl
@[simp] theorem State.setR0_tEof : (s.setR0 v).tEof = s.tEof := rfl
@[simp] theorem State.setR0_tResp : (s.setR0 v).tResp = s.tResp := rfl
@[simp] theorem State.setR0_tid : (s.setR0 v).tid = s.tid := rfl
@[simp] theorem State.setR0_txb : (s.setR0 v).txb = s.txb := rfl
@[simp] theorem State.setR0_txLen : (s.setR0 v).txLen = s.txLen := rfl
@[simp] theorem State.setR0_txFinal : (s.setR0 v).txFinal = s.txFinal := rfl
@[simp] theorem State.setR0_rxb : (s.setR0 v).rxb = s.rxb := rfl
@[simp] theorem State.setR0_rxLen : (s.setR0 v).rxLen = s.rxLen := rfl
@[simp] theorem State.setR0_rxState : (s.setR0 v).rxState = s.rxState := rfl
@[simp] theorem State.setR0_rxResult : (s.setR0 v).rxResult = s.rxResult := rfl
@[simp] theorem State.setR0_rxKind : (s.setR0 v).rxKind = s.rxKind := rfl
@[simp] theorem State.setR0_rxKnown : (s.setR0 v).rxKnown = s.rxKnown := rfl
@[simp] theorem State.setR0_rxNeed : (s.setR0 v).rxNeed = s.rxNeed := rfl
@[simp] theorem State.setR0_rxTotal : (s.setR0 v).rxTotal = s.rxTotal := rfl
@[simp] theorem State.setR0_rxTimer : (s.setR0 v).rxTimer = s.rxTimer := rfl
@[simp] theorem State.setR0_rxReload : (s.setR0 v).rxReload = s.rxReload := rfl
@[simp] theorem State.setR0_inbox : (s.setR0 v).inbox = s.inbox := rfl
@[simp] theorem State.setR0_later : (s.setR0 v).later = s.later := rfl

end

section
variable (s : State) (m : Mode)

@[simp] theorem State.setMode_r0 : (s.setMode m).r0 = s.r0 := rfl
@[simp] theorem State.setMode_r1 : (s.setMode m).r1 = s.r1 := rfl
@[simp] theorem State.setMode_r2 : (s.setMode m).r2 = s.r2 := rfl
@[simp] theorem State.setMode_r3 : (s.setMode m).r3 = s.r3 := rfl
@[simp] theorem State.setMode_r4 : (s.setMode m).r4 = s.r4 := rfl
@[simp] theorem State.setMode_r5 : (s.setMode m).r5 = s.r5 := rfl
@[simp] theorem State.setMode_r6 : (s.setMode m).r6 = s.r6 := rfl
@[simp] theorem State.setMode_r7 : (s.setMode m).r7 = s.r7 := rfl
@[simp] theorem State.setMode_sta : (s.setMode m).sta = s.sta := rfl
@[simp] theorem State.setMode_mode : (s.setMode m).mode = m := rfl
@[simp] theorem State.setMode_tFirst : (s.setMode m).tFirst = s.tFirst := rfl
@[simp] theorem State.setMode_tEof : (s.setMode m).tEof = s.tEof := rfl
@[simp] theorem State.setMode_tResp : (s.setMode m).tResp = s.tResp := rfl
@[simp] theorem State.setMode_tid : (s.setMode m).tid = s.tid := rfl
@[simp] theorem State.setMode_txb : (s.setMode m).txb = [] := rfl
@[simp] theorem State.setMode_txLen : (s.setMode m).txLen = 0#9 := rfl
@[simp] theorem State.setMode_txFinal : (s.setMode m).txFinal = false := rfl
@[simp] theorem State.setMode_rxb : (s.setMode m).rxb = [] := rfl
@[simp] theorem State.setMode_rxLen : (s.setMode m).rxLen = 0#9 := rfl
@[simp] theorem State.setMode_rxState : (s.setMode m).rxState = .idle := rfl
@[simp] theorem State.setMode_rxResult : (s.setMode m).rxResult = .noOutcome := rfl
@[simp] theorem State.setMode_rxKind : (s.setMode m).rxKind = .fixed := rfl
@[simp] theorem State.setMode_rxKnown : (s.setMode m).rxKnown = false := rfl
@[simp] theorem State.setMode_rxNeed : (s.setMode m).rxNeed = 0#9 := rfl
@[simp] theorem State.setMode_rxTotal : (s.setMode m).rxTotal = 0#9 := rfl
@[simp] theorem State.setMode_rxTimer : (s.setMode m).rxTimer = 0#32 := rfl
@[simp] theorem State.setMode_rxReload : (s.setMode m).rxReload = 0#32 := rfl
@[simp] theorem State.setMode_inbox : (s.setMode m).inbox = s.inbox := rfl
@[simp] theorem State.setMode_later : (s.setMode m).later = s.later := rfl

end

section
variable (s : State) (frame : List Byte)

@[simp] theorem State.build_r0 : (s.build frame).r0 = BitVec.ofNat 32 frame.length := rfl
@[simp] theorem State.build_r1 : (s.build frame).r1 = s.r1 := rfl
@[simp] theorem State.build_r2 : (s.build frame).r2 = s.r2 := rfl
@[simp] theorem State.build_r3 : (s.build frame).r3 = s.r3 := rfl
@[simp] theorem State.build_r4 : (s.build frame).r4 = s.r4 := rfl
@[simp] theorem State.build_r5 : (s.build frame).r5 = s.r5 := rfl
@[simp] theorem State.build_r6 : (s.build frame).r6 = s.r6 := rfl
@[simp] theorem State.build_r7 : (s.build frame).r7 = s.r7 := rfl
@[simp] theorem State.build_sta : (s.build frame).sta = s.sta := rfl
@[simp] theorem State.build_mode : (s.build frame).mode = s.mode := rfl
@[simp] theorem State.build_tFirst : (s.build frame).tFirst = s.tFirst := rfl
@[simp] theorem State.build_tEof : (s.build frame).tEof = s.tEof := rfl
@[simp] theorem State.build_tResp : (s.build frame).tResp = s.tResp := rfl
@[simp] theorem State.build_tid : (s.build frame).tid = s.tid := rfl
@[simp] theorem State.build_txb : (s.build frame).txb = Memory.ofBytes frame := rfl
@[simp] theorem State.build_txLen : (s.build frame).txLen = toLen frame.length := rfl
@[simp] theorem State.build_txFinal : (s.build frame).txFinal = false := rfl
@[simp] theorem State.build_rxb : (s.build frame).rxb = s.rxb := rfl
@[simp] theorem State.build_rxLen : (s.build frame).rxLen = s.rxLen := rfl
@[simp] theorem State.build_rxState : (s.build frame).rxState = s.rxState := rfl
@[simp] theorem State.build_rxResult : (s.build frame).rxResult = s.rxResult := rfl
@[simp] theorem State.build_rxKind : (s.build frame).rxKind = s.rxKind := rfl
@[simp] theorem State.build_rxKnown : (s.build frame).rxKnown = s.rxKnown := rfl
@[simp] theorem State.build_rxNeed : (s.build frame).rxNeed = s.rxNeed := rfl
@[simp] theorem State.build_rxTotal : (s.build frame).rxTotal = s.rxTotal := rfl
@[simp] theorem State.build_rxTimer : (s.build frame).rxTimer = s.rxTimer := rfl
@[simp] theorem State.build_rxReload : (s.build frame).rxReload = s.rxReload := rfl
@[simp] theorem State.build_inbox : (s.build frame).inbox = s.inbox := rfl
@[simp] theorem State.build_later : (s.build frame).later = s.later := rfl

end

section
variable (s : State) (r : Half)

@[simp] theorem State.appendCrc_r0 : (s.appendCrc r).r0 = BitVec.ofNat 32 (s.txLen.toNat + 2) := rfl
@[simp] theorem State.appendCrc_r1 : (s.appendCrc r).r1 = s.r1 := rfl
@[simp] theorem State.appendCrc_r2 : (s.appendCrc r).r2 = s.r2 := rfl
@[simp] theorem State.appendCrc_r3 : (s.appendCrc r).r3 = s.r3 := rfl
@[simp] theorem State.appendCrc_r4 : (s.appendCrc r).r4 = s.r4 := rfl
@[simp] theorem State.appendCrc_r5 : (s.appendCrc r).r5 = s.r5 := rfl
@[simp] theorem State.appendCrc_r6 : (s.appendCrc r).r6 = s.r6 := rfl
@[simp] theorem State.appendCrc_r7 : (s.appendCrc r).r7 = s.r7 := rfl
@[simp] theorem State.appendCrc_sta : (s.appendCrc r).sta = s.sta := rfl
@[simp] theorem State.appendCrc_mode : (s.appendCrc r).mode = s.mode := rfl
@[simp] theorem State.appendCrc_tFirst : (s.appendCrc r).tFirst = s.tFirst := rfl
@[simp] theorem State.appendCrc_tEof : (s.appendCrc r).tEof = s.tEof := rfl
@[simp] theorem State.appendCrc_tResp : (s.appendCrc r).tResp = s.tResp := rfl
@[simp] theorem State.appendCrc_tid : (s.appendCrc r).tid = s.tid := rfl
@[simp] theorem State.appendCrc_txb : (s.appendCrc r).txb = Memory.write (Memory.write s.txb s.txLen.toNat (hiByte r)) (s.txLen.toNat + 1) (loByte r) := rfl
@[simp] theorem State.appendCrc_txLen : (s.appendCrc r).txLen = toLen (s.txLen.toNat + 2) := rfl
@[simp] theorem State.appendCrc_txFinal : (s.appendCrc r).txFinal = true := rfl
@[simp] theorem State.appendCrc_rxb : (s.appendCrc r).rxb = s.rxb := rfl
@[simp] theorem State.appendCrc_rxLen : (s.appendCrc r).rxLen = s.rxLen := rfl
@[simp] theorem State.appendCrc_rxState : (s.appendCrc r).rxState = s.rxState := rfl
@[simp] theorem State.appendCrc_rxResult : (s.appendCrc r).rxResult = s.rxResult := rfl
@[simp] theorem State.appendCrc_rxKind : (s.appendCrc r).rxKind = s.rxKind := rfl
@[simp] theorem State.appendCrc_rxKnown : (s.appendCrc r).rxKnown = s.rxKnown := rfl
@[simp] theorem State.appendCrc_rxNeed : (s.appendCrc r).rxNeed = s.rxNeed := rfl
@[simp] theorem State.appendCrc_rxTotal : (s.appendCrc r).rxTotal = s.rxTotal := rfl
@[simp] theorem State.appendCrc_rxTimer : (s.appendCrc r).rxTimer = s.rxTimer := rfl
@[simp] theorem State.appendCrc_rxReload : (s.appendCrc r).rxReload = s.rxReload := rfl
@[simp] theorem State.appendCrc_inbox : (s.appendCrc r).inbox = s.inbox := rfl
@[simp] theorem State.appendCrc_later : (s.appendCrc r).later = s.later := rfl

end

section
variable (s : State)

@[simp] theorem State.fillLength_r0 : (s.fillLength).r0 = BitVec.ofNat 32 s.txLen.toNat := rfl
@[simp] theorem State.fillLength_r1 : (s.fillLength).r1 = s.r1 := rfl
@[simp] theorem State.fillLength_r2 : (s.fillLength).r2 = s.r2 := rfl
@[simp] theorem State.fillLength_r3 : (s.fillLength).r3 = s.r3 := rfl
@[simp] theorem State.fillLength_r4 : (s.fillLength).r4 = s.r4 := rfl
@[simp] theorem State.fillLength_r5 : (s.fillLength).r5 = s.r5 := rfl
@[simp] theorem State.fillLength_r6 : (s.fillLength).r6 = s.r6 := rfl
@[simp] theorem State.fillLength_r7 : (s.fillLength).r7 = s.r7 := rfl
@[simp] theorem State.fillLength_sta : (s.fillLength).sta = s.sta := rfl
@[simp] theorem State.fillLength_mode : (s.fillLength).mode = s.mode := rfl
@[simp] theorem State.fillLength_tFirst : (s.fillLength).tFirst = s.tFirst := rfl
@[simp] theorem State.fillLength_tEof : (s.fillLength).tEof = s.tEof := rfl
@[simp] theorem State.fillLength_tResp : (s.fillLength).tResp = s.tResp := rfl
@[simp] theorem State.fillLength_tid : (s.fillLength).tid = s.tid := rfl
@[simp] theorem State.fillLength_txb : (s.fillLength).txb = 
      Memory.write
        (Memory.write s.txb 4 (hiByte (BitVec.ofNat 16 (s.txLen.toNat - Config.mbapPrefix))))
        5 (loByte (BitVec.ofNat 16 (s.txLen.toNat - Config.mbapPrefix))) := rfl
@[simp] theorem State.fillLength_txLen : (s.fillLength).txLen = s.txLen := rfl
@[simp] theorem State.fillLength_txFinal : (s.fillLength).txFinal = true := rfl
@[simp] theorem State.fillLength_rxb : (s.fillLength).rxb = s.rxb := rfl
@[simp] theorem State.fillLength_rxLen : (s.fillLength).rxLen = s.rxLen := rfl
@[simp] theorem State.fillLength_rxState : (s.fillLength).rxState = s.rxState := rfl
@[simp] theorem State.fillLength_rxResult : (s.fillLength).rxResult = s.rxResult := rfl
@[simp] theorem State.fillLength_rxKind : (s.fillLength).rxKind = s.rxKind := rfl
@[simp] theorem State.fillLength_rxKnown : (s.fillLength).rxKnown = s.rxKnown := rfl
@[simp] theorem State.fillLength_rxNeed : (s.fillLength).rxNeed = s.rxNeed := rfl
@[simp] theorem State.fillLength_rxTotal : (s.fillLength).rxTotal = s.rxTotal := rfl
@[simp] theorem State.fillLength_rxTimer : (s.fillLength).rxTimer = s.rxTimer := rfl
@[simp] theorem State.fillLength_rxReload : (s.fillLength).rxReload = s.rxReload := rfl
@[simp] theorem State.fillLength_inbox : (s.fillLength).inbox = s.inbox := rfl
@[simp] theorem State.fillLength_later : (s.fillLength).later = s.later := rfl

end

section
variable (s : State) (n : Nat)

@[simp] theorem State.predicted_r0 : (s.predicted n).r0 = BitVec.ofNat 32 (s.h + n + s.ck) := rfl
@[simp] theorem State.predicted_r1 : (s.predicted n).r1 = BitVec.ofNat 32 n := rfl
@[simp] theorem State.predicted_r2 : (s.predicted n).r2 = s.r2 := rfl
@[simp] theorem State.predicted_r3 : (s.predicted n).r3 = s.r3 := rfl
@[simp] theorem State.predicted_r4 : (s.predicted n).r4 = s.r4 := rfl
@[simp] theorem State.predicted_r5 : (s.predicted n).r5 = s.r5 := rfl
@[simp] theorem State.predicted_r6 : (s.predicted n).r6 = s.r6 := rfl
@[simp] theorem State.predicted_r7 : (s.predicted n).r7 = s.r7 := rfl
@[simp] theorem State.predicted_sta : (s.predicted n).sta = s.sta := rfl
@[simp] theorem State.predicted_mode : (s.predicted n).mode = s.mode := rfl
@[simp] theorem State.predicted_tFirst : (s.predicted n).tFirst = s.tFirst := rfl
@[simp] theorem State.predicted_tEof : (s.predicted n).tEof = s.tEof := rfl
@[simp] theorem State.predicted_tResp : (s.predicted n).tResp = s.tResp := rfl
@[simp] theorem State.predicted_tid : (s.predicted n).tid = s.tid := rfl
@[simp] theorem State.predicted_txb : (s.predicted n).txb = s.txb := rfl
@[simp] theorem State.predicted_txLen : (s.predicted n).txLen = s.txLen := rfl
@[simp] theorem State.predicted_txFinal : (s.predicted n).txFinal = s.txFinal := rfl
@[simp] theorem State.predicted_rxb : (s.predicted n).rxb = s.rxb := rfl
@[simp] theorem State.predicted_rxLen : (s.predicted n).rxLen = s.rxLen := rfl
@[simp] theorem State.predicted_rxState : (s.predicted n).rxState = s.rxState := rfl
@[simp] theorem State.predicted_rxResult : (s.predicted n).rxResult = s.rxResult := rfl
@[simp] theorem State.predicted_rxKind : (s.predicted n).rxKind = s.rxKind := rfl
@[simp] theorem State.predicted_rxKnown : (s.predicted n).rxKnown = s.rxKnown := rfl
@[simp] theorem State.predicted_rxNeed : (s.predicted n).rxNeed = s.rxNeed := rfl
@[simp] theorem State.predicted_rxTotal : (s.predicted n).rxTotal = s.rxTotal := rfl
@[simp] theorem State.predicted_rxTimer : (s.predicted n).rxTimer = s.rxTimer := rfl
@[simp] theorem State.predicted_rxReload : (s.predicted n).rxReload = s.rxReload := rfl
@[simp] theorem State.predicted_inbox : (s.predicted n).inbox = s.inbox := rfl
@[simp] theorem State.predicted_later : (s.predicted n).later = s.later := rfl

end

section
variable (s : State) (d : Decoded)

@[simp] theorem State.deliver_r0 : (s.deliver d).r0 = d.d0 := rfl
@[simp] theorem State.deliver_r1 : (s.deliver d).r1 = d.d1 := rfl
@[simp] theorem State.deliver_r2 : (s.deliver d).r2 = d.d2 := rfl
@[simp] theorem State.deliver_r3 : (s.deliver d).r3 = d.d3 := rfl
@[simp] theorem State.deliver_r4 : (s.deliver d).r4 = d.d4 := rfl
@[simp] theorem State.deliver_r5 : (s.deliver d).r5 = d.d5 := rfl
@[simp] theorem State.deliver_r6 : (s.deliver d).r6 = d.d6 := rfl
@[simp] theorem State.deliver_r7 : (s.deliver d).r7 = s.r7 := rfl
@[simp] theorem State.deliver_sta : (s.deliver d).sta = s.sta := rfl
@[simp] theorem State.deliver_mode : (s.deliver d).mode = s.mode := rfl
@[simp] theorem State.deliver_tFirst : (s.deliver d).tFirst = s.tFirst := rfl
@[simp] theorem State.deliver_tEof : (s.deliver d).tEof = s.tEof := rfl
@[simp] theorem State.deliver_tResp : (s.deliver d).tResp = s.tResp := rfl
@[simp] theorem State.deliver_tid : (s.deliver d).tid = s.tid := rfl
@[simp] theorem State.deliver_txb : (s.deliver d).txb = s.txb := rfl
@[simp] theorem State.deliver_txLen : (s.deliver d).txLen = s.txLen := rfl
@[simp] theorem State.deliver_txFinal : (s.deliver d).txFinal = s.txFinal := rfl
@[simp] theorem State.deliver_rxb : (s.deliver d).rxb = s.rxb := rfl
@[simp] theorem State.deliver_rxLen : (s.deliver d).rxLen = s.rxLen := rfl
@[simp] theorem State.deliver_rxState : (s.deliver d).rxState = s.rxState := rfl
@[simp] theorem State.deliver_rxResult : (s.deliver d).rxResult = s.rxResult := rfl
@[simp] theorem State.deliver_rxKind : (s.deliver d).rxKind = s.rxKind := rfl
@[simp] theorem State.deliver_rxKnown : (s.deliver d).rxKnown = s.rxKnown := rfl
@[simp] theorem State.deliver_rxNeed : (s.deliver d).rxNeed = s.rxNeed := rfl
@[simp] theorem State.deliver_rxTotal : (s.deliver d).rxTotal = s.rxTotal := rfl
@[simp] theorem State.deliver_rxTimer : (s.deliver d).rxTimer = s.rxTimer := rfl
@[simp] theorem State.deliver_rxReload : (s.deliver d).rxReload = s.rxReload := rfl
@[simp] theorem State.deliver_inbox : (s.deliver d).inbox = s.inbox := rfl
@[simp] theorem State.deliver_later : (s.deliver d).later = s.later := rfl

end

section
variable (s : State)

@[simp] theorem State.rejectLength_r0 : (s.rejectLength).r0 = s.r0 := rfl
@[simp] theorem State.rejectLength_r1 : (s.rejectLength).r1 = s.r1 := rfl
@[simp] theorem State.rejectLength_r2 : (s.rejectLength).r2 = s.r2 := rfl
@[simp] theorem State.rejectLength_r3 : (s.rejectLength).r3 = s.r3 := rfl
@[simp] theorem State.rejectLength_r4 : (s.rejectLength).r4 = s.r4 := rfl
@[simp] theorem State.rejectLength_r5 : (s.rejectLength).r5 = s.r5 := rfl
@[simp] theorem State.rejectLength_r6 : (s.rejectLength).r6 = s.r6 := rfl
@[simp] theorem State.rejectLength_r7 : (s.rejectLength).r7 = s.r7 := rfl
@[simp] theorem State.rejectLength_sta : (s.rejectLength).sta = s.sta := rfl
@[simp] theorem State.rejectLength_mode : (s.rejectLength).mode = s.mode := rfl
@[simp] theorem State.rejectLength_tFirst : (s.rejectLength).tFirst = s.tFirst := rfl
@[simp] theorem State.rejectLength_tEof : (s.rejectLength).tEof = s.tEof := rfl
@[simp] theorem State.rejectLength_tResp : (s.rejectLength).tResp = s.tResp := rfl
@[simp] theorem State.rejectLength_tid : (s.rejectLength).tid = s.tid := rfl
@[simp] theorem State.rejectLength_txb : (s.rejectLength).txb = s.txb := rfl
@[simp] theorem State.rejectLength_txLen : (s.rejectLength).txLen = s.txLen := rfl
@[simp] theorem State.rejectLength_txFinal : (s.rejectLength).txFinal = s.txFinal := rfl
@[simp] theorem State.rejectLength_rxb : (s.rejectLength).rxb = [] := rfl
@[simp] theorem State.rejectLength_rxLen : (s.rejectLength).rxLen = 0#9 := rfl
@[simp] theorem State.rejectLength_rxState : (s.rejectLength).rxState = .faulted := rfl
@[simp] theorem State.rejectLength_rxResult : (s.rejectLength).rxResult = .invalidData := rfl
@[simp] theorem State.rejectLength_rxKind : (s.rejectLength).rxKind = .fixed := rfl
@[simp] theorem State.rejectLength_rxKnown : (s.rejectLength).rxKnown = false := rfl
@[simp] theorem State.rejectLength_rxNeed : (s.rejectLength).rxNeed = 0#9 := rfl
@[simp] theorem State.rejectLength_rxTotal : (s.rejectLength).rxTotal = 0#9 := rfl
@[simp] theorem State.rejectLength_rxTimer : (s.rejectLength).rxTimer = 0#32 := rfl
@[simp] theorem State.rejectLength_rxReload : (s.rejectLength).rxReload = 0#32 := rfl
@[simp] theorem State.rejectLength_inbox : (s.rejectLength).inbox = s.inbox := rfl
@[simp] theorem State.rejectLength_later : (s.rejectLength).later = s.later := rfl

end

section
variable (s : State) (n : Nat)

@[simp] theorem State.armFixed_r0 : (s.armFixed n).r0 = s.r0 := rfl
@[simp] theorem State.armFixed_r1 : (s.armFixed n).r1 = s.r1 := rfl
@[simp] theorem State.armFixed_r2 : (s.armFixed n).r2 = s.r2 := rfl
@[simp] theorem State.armFixed_r3 : (s.armFixed n).r3 = s.r3 := rfl
@[simp] theorem State.armFixed_r4 : (s.armFixed n).r4 = s.r4 := rfl
@[simp] theorem State.armFixed_r5 : (s.armFixed n).r5 = s.r5 := rfl
@[simp] theorem State.armFixed_r6 : (s.armFixed n).r6 = s.r6 := rfl
@[simp] theorem State.armFixed_r7 : (s.armFixed n).r7 = s.r7 := rfl
@[simp] theorem State.armFixed_sta : (s.armFixed n).sta = s.sta := rfl
@[simp] theorem State.armFixed_mode : (s.armFixed n).mode = s.mode := rfl
@[simp] theorem State.armFixed_tFirst : (s.armFixed n).tFirst = s.tFirst := rfl
@[simp] theorem State.armFixed_tEof : (s.armFixed n).tEof = s.tEof := rfl
@[simp] theorem State.armFixed_tResp : (s.armFixed n).tResp = s.tResp := rfl
@[simp] theorem State.armFixed_tid : (s.armFixed n).tid = s.tid := rfl
@[simp] theorem State.armFixed_txb : (s.armFixed n).txb = s.txb := rfl
@[simp] theorem State.armFixed_txLen : (s.armFixed n).txLen = s.txLen := rfl
@[simp] theorem State.armFixed_txFinal : (s.armFixed n).txFinal = s.txFinal := rfl
@[simp] theorem State.armFixed_rxb : (s.armFixed n).rxb = [] := rfl
@[simp] theorem State.armFixed_rxLen : (s.armFixed n).rxLen = 0#9 := rfl
@[simp] theorem State.armFixed_rxState : (s.armFixed n).rxState = .awaitRemainder := rfl
@[simp] theorem State.armFixed_rxResult : (s.armFixed n).rxResult = .noOutcome := rfl
@[simp] theorem State.armFixed_rxKind : (s.armFixed n).rxKind = .fixed := rfl
@[simp] theorem State.armFixed_rxKnown : (s.armFixed n).rxKnown = true := rfl
@[simp] theorem State.armFixed_rxNeed : (s.armFixed n).rxNeed = toLen n := rfl
@[simp] theorem State.armFixed_rxTotal : (s.armFixed n).rxTotal = toLen n := rfl
@[simp] theorem State.armFixed_rxTimer : (s.armFixed n).rxTimer = s.tResp := rfl
@[simp] theorem State.armFixed_rxReload : (s.armFixed n).rxReload = s.tResp := rfl
@[simp] theorem State.armFixed_inbox : (s.armFixed n).inbox = s.inbox := rfl
@[simp] theorem State.armFixed_later : (s.armFixed n).later = s.later := rfl

end

section
variable (s : State)

@[simp] theorem State.armUndefined_r0 : (s.armUndefined).r0 = s.r0 := rfl
@[simp] theorem State.armUndefined_r1 : (s.armUndefined).r1 = s.r1 := rfl
@[simp] theorem State.armUndefined_r2 : (s.armUndefined).r2 = s.r2 := rfl
@[simp] theorem State.armUndefined_r3 : (s.armUndefined).r3 = s.r3 := rfl
@[simp] theorem State.armUndefined_r4 : (s.armUndefined).r4 = s.r4 := rfl
@[simp] theorem State.armUndefined_r5 : (s.armUndefined).r5 = s.r5 := rfl
@[simp] theorem State.armUndefined_r6 : (s.armUndefined).r6 = s.r6 := rfl
@[simp] theorem State.armUndefined_r7 : (s.armUndefined).r7 = s.r7 := rfl
@[simp] theorem State.armUndefined_sta : (s.armUndefined).sta = s.sta := rfl
@[simp] theorem State.armUndefined_mode : (s.armUndefined).mode = s.mode := rfl
@[simp] theorem State.armUndefined_tFirst : (s.armUndefined).tFirst = s.tFirst := rfl
@[simp] theorem State.armUndefined_tEof : (s.armUndefined).tEof = s.tEof := rfl
@[simp] theorem State.armUndefined_tResp : (s.armUndefined).tResp = s.tResp := rfl
@[simp] theorem State.armUndefined_tid : (s.armUndefined).tid = s.tid := rfl
@[simp] theorem State.armUndefined_txb : (s.armUndefined).txb = s.txb := rfl
@[simp] theorem State.armUndefined_txLen : (s.armUndefined).txLen = s.txLen := rfl
@[simp] theorem State.armUndefined_txFinal : (s.armUndefined).txFinal = s.txFinal := rfl
@[simp] theorem State.armUndefined_rxb : (s.armUndefined).rxb = [] := rfl
@[simp] theorem State.armUndefined_rxLen : (s.armUndefined).rxLen = 0#9 := rfl
@[simp] theorem State.armUndefined_rxState : (s.armUndefined).rxState = .awaitFunction := rfl
@[simp] theorem State.armUndefined_rxResult : (s.armUndefined).rxResult = .noOutcome := rfl
@[simp] theorem State.armUndefined_rxKind : (s.armUndefined).rxKind = .undefinedLength := rfl
@[simp] theorem State.armUndefined_rxKnown : (s.armUndefined).rxKnown = false := rfl
@[simp] theorem State.armUndefined_rxNeed : (s.armUndefined).rxNeed = toLen (s.h + 1) := rfl
@[simp] theorem State.armUndefined_rxTotal : (s.armUndefined).rxTotal = toLen (s.h + 1) := rfl
@[simp] theorem State.armUndefined_rxTimer : (s.armUndefined).rxTimer = s.tFirst := rfl
@[simp] theorem State.armUndefined_rxReload : (s.armUndefined).rxReload = s.tFirst := rfl
@[simp] theorem State.armUndefined_inbox : (s.armUndefined).inbox = s.inbox := rfl
@[simp] theorem State.armUndefined_later : (s.armUndefined).later = s.later := rfl

end

section
variable (s : State) (c : Status)

@[simp] theorem State.completeWith_r0 : (s.completeWith c).r0 = s.r0 := rfl
@[simp] theorem State.completeWith_r1 : (s.completeWith c).r1 = s.r1 := rfl
@[simp] theorem State.completeWith_r2 : (s.completeWith c).r2 = s.r2 := rfl
@[simp] theorem State.completeWith_r3 : (s.completeWith c).r3 = s.r3 := rfl
@[simp] theorem State.completeWith_r4 : (s.completeWith c).r4 = s.r4 := rfl
@[simp] theorem State.completeWith_r5 : (s.completeWith c).r5 = s.r5 := rfl
@[simp] theorem State.completeWith_r6 : (s.completeWith c).r6 = s.r6 := rfl
@[simp] theorem State.completeWith_r7 : (s.completeWith c).r7 = s.r7 := rfl
@[simp] theorem State.completeWith_sta : (s.completeWith c).sta = s.sta := rfl
@[simp] theorem State.completeWith_mode : (s.completeWith c).mode = s.mode := rfl
@[simp] theorem State.completeWith_tFirst : (s.completeWith c).tFirst = s.tFirst := rfl
@[simp] theorem State.completeWith_tEof : (s.completeWith c).tEof = s.tEof := rfl
@[simp] theorem State.completeWith_tResp : (s.completeWith c).tResp = s.tResp := rfl
@[simp] theorem State.completeWith_tid : (s.completeWith c).tid = s.tid := rfl
@[simp] theorem State.completeWith_txb : (s.completeWith c).txb = s.txb := rfl
@[simp] theorem State.completeWith_txLen : (s.completeWith c).txLen = s.txLen := rfl
@[simp] theorem State.completeWith_txFinal : (s.completeWith c).txFinal = s.txFinal := rfl
@[simp] theorem State.completeWith_rxb : (s.completeWith c).rxb = s.rxb := rfl
@[simp] theorem State.completeWith_rxLen : (s.completeWith c).rxLen = s.rxLen := rfl
@[simp] theorem State.completeWith_rxState : (s.completeWith c).rxState = .complete := rfl
@[simp] theorem State.completeWith_rxResult : (s.completeWith c).rxResult = c := rfl
@[simp] theorem State.completeWith_rxKind : (s.completeWith c).rxKind = s.rxKind := rfl
@[simp] theorem State.completeWith_rxKnown : (s.completeWith c).rxKnown = s.rxKnown := rfl
@[simp] theorem State.completeWith_rxNeed : (s.completeWith c).rxNeed = 0#9 := rfl
@[simp] theorem State.completeWith_rxTotal : (s.completeWith c).rxTotal = s.rxLen := rfl
@[simp] theorem State.completeWith_rxTimer : (s.completeWith c).rxTimer = 0#32 := rfl
@[simp] theorem State.completeWith_rxReload : (s.completeWith c).rxReload = s.rxReload := rfl
@[simp] theorem State.completeWith_inbox : (s.completeWith c).inbox = s.inbox := rfl
@[simp] theorem State.completeWith_later : (s.completeWith c).later = s.later := rfl

end

section
variable (s : State) (d : Byte)

@[simp] theorem State.storeByte_r0 : (s.storeByte d).r0 = s.r0 := rfl
@[simp] theorem State.storeByte_r1 : (s.storeByte d).r1 = s.r1 := rfl
@[simp] theorem State.storeByte_r2 : (s.storeByte d).r2 = s.r2 := rfl
@[simp] theorem State.storeByte_r3 : (s.storeByte d).r3 = s.r3 := rfl
@[simp] theorem State.storeByte_r4 : (s.storeByte d).r4 = s.r4 := rfl
@[simp] theorem State.storeByte_r5 : (s.storeByte d).r5 = s.r5 := rfl
@[simp] theorem State.storeByte_r6 : (s.storeByte d).r6 = s.r6 := rfl
@[simp] theorem State.storeByte_r7 : (s.storeByte d).r7 = s.r7 := rfl
@[simp] theorem State.storeByte_sta : (s.storeByte d).sta = s.sta := rfl
@[simp] theorem State.storeByte_mode : (s.storeByte d).mode = s.mode := rfl
@[simp] theorem State.storeByte_tFirst : (s.storeByte d).tFirst = s.tFirst := rfl
@[simp] theorem State.storeByte_tEof : (s.storeByte d).tEof = s.tEof := rfl
@[simp] theorem State.storeByte_tResp : (s.storeByte d).tResp = s.tResp := rfl
@[simp] theorem State.storeByte_tid : (s.storeByte d).tid = s.tid := rfl
@[simp] theorem State.storeByte_txb : (s.storeByte d).txb = s.txb := rfl
@[simp] theorem State.storeByte_txLen : (s.storeByte d).txLen = s.txLen := rfl
@[simp] theorem State.storeByte_txFinal : (s.storeByte d).txFinal = s.txFinal := rfl
@[simp] theorem State.storeByte_rxb : (s.storeByte d).rxb = Memory.write s.rxb s.rxLen.toNat d := rfl
@[simp] theorem State.storeByte_rxLen : (s.storeByte d).rxLen = toLen (s.rxLen.toNat + 1) := rfl
@[simp] theorem State.storeByte_rxState : (s.storeByte d).rxState = s.rxState := rfl
@[simp] theorem State.storeByte_rxResult : (s.storeByte d).rxResult = s.rxResult := rfl
@[simp] theorem State.storeByte_rxKind : (s.storeByte d).rxKind = s.rxKind := rfl
@[simp] theorem State.storeByte_rxKnown : (s.storeByte d).rxKnown = s.rxKnown := rfl
@[simp] theorem State.storeByte_rxNeed : (s.storeByte d).rxNeed = toLen (s.rxNeed.toNat - 1) := rfl
@[simp] theorem State.storeByte_rxTotal : (s.storeByte d).rxTotal = s.rxTotal := rfl
@[simp] theorem State.storeByte_rxTimer : (s.storeByte d).rxTimer = s.tEof := rfl
@[simp] theorem State.storeByte_rxReload : (s.storeByte d).rxReload = s.tEof := rfl
@[simp] theorem State.storeByte_inbox : (s.storeByte d).inbox = s.inbox := rfl
@[simp] theorem State.storeByte_later : (s.storeByte d).later = s.later := rfl

end

section
variable (s : State) (c : Status)

@[simp] theorem State.rxFault_r0 : (s.rxFault c).r0 = s.r0 := by
  unfold State.rxFault; split <;> simp_all
@[simp] theorem State.rxFault_r1 : (s.rxFault c).r1 = s.r1 := by
  unfold State.rxFault; split <;> simp_all
@[simp] theorem State.rxFault_r2 : (s.rxFault c).r2 = s.r2 := by
  unfold State.rxFault; split <;> simp_all
@[simp] theorem State.rxFault_r3 : (s.rxFault c).r3 = s.r3 := by
  unfold State.rxFault; split <;> simp_all
@[simp] theorem State.rxFault_r4 : (s.rxFault c).r4 = s.r4 := by
  unfold State.rxFault; split <;> simp_all
@[simp] theorem State.rxFault_r5 : (s.rxFault c).r5 = s.r5 := by
  unfold State.rxFault; split <;> simp_all
@[simp] theorem State.rxFault_r6 : (s.rxFault c).r6 = s.r6 := by
  unfold State.rxFault; split <;> simp_all
@[simp] theorem State.rxFault_r7 : (s.rxFault c).r7 = s.r7 := by
  unfold State.rxFault; split <;> simp_all
@[simp] theorem State.rxFault_sta : (s.rxFault c).sta = s.sta := by
  unfold State.rxFault; split <;> simp_all
@[simp] theorem State.rxFault_mode : (s.rxFault c).mode = s.mode := by
  unfold State.rxFault; split <;> simp_all
@[simp] theorem State.rxFault_tFirst : (s.rxFault c).tFirst = s.tFirst := by
  unfold State.rxFault; split <;> simp_all
@[simp] theorem State.rxFault_tEof : (s.rxFault c).tEof = s.tEof := by
  unfold State.rxFault; split <;> simp_all
@[simp] theorem State.rxFault_tResp : (s.rxFault c).tResp = s.tResp := by
  unfold State.rxFault; split <;> simp_all
@[simp] theorem State.rxFault_tid : (s.rxFault c).tid = s.tid := by
  unfold State.rxFault; split <;> simp_all
@[simp] theorem State.rxFault_txb : (s.rxFault c).txb = s.txb := by
  unfold State.rxFault; split <;> simp_all
@[simp] theorem State.rxFault_txLen : (s.rxFault c).txLen = s.txLen := by
  unfold State.rxFault; split <;> simp_all
@[simp] theorem State.rxFault_txFinal : (s.rxFault c).txFinal = s.txFinal := by
  unfold State.rxFault; split <;> simp_all
@[simp] theorem State.rxFault_rxb : (s.rxFault c).rxb = (if c = .invalidCrc then [] else s.rxb) := by
  unfold State.rxFault; split <;> simp_all
@[simp] theorem State.rxFault_rxLen : (s.rxFault c).rxLen = (if c = .invalidCrc then 0#9 else s.rxLen) := by
  unfold State.rxFault; split <;> simp_all
@[simp] theorem State.rxFault_rxState : (s.rxFault c).rxState = .faulted := by
  unfold State.rxFault; split <;> simp_all
@[simp] theorem State.rxFault_rxResult : (s.rxFault c).rxResult = c := by
  unfold State.rxFault; split <;> simp_all
@[simp] theorem State.rxFault_rxKind : (s.rxFault c).rxKind = s.rxKind := by
  unfold State.rxFault; split <;> simp_all
@[simp] theorem State.rxFault_rxKnown : (s.rxFault c).rxKnown = s.rxKnown := by
  unfold State.rxFault; split <;> simp_all
@[simp] theorem State.rxFault_rxNeed : (s.rxFault c).rxNeed = s.rxNeed := by
  unfold State.rxFault; split <;> simp_all
@[simp] theorem State.rxFault_rxTotal : (s.rxFault c).rxTotal = s.rxTotal := by
  unfold State.rxFault; split <;> simp_all
@[simp] theorem State.rxFault_rxTimer : (s.rxFault c).rxTimer = 0#32 := by
  unfold State.rxFault; split <;> simp_all
@[simp] theorem State.rxFault_rxReload : (s.rxFault c).rxReload = s.rxReload := by
  unfold State.rxFault; split <;> simp_all
@[simp] theorem State.rxFault_inbox : (s.rxFault c).inbox = s.inbox := by
  unfold State.rxFault; split <;> simp_all
@[simp] theorem State.rxFault_later : (s.rxFault c).later = s.later := by
  unfold State.rxFault; split <;> simp_all

end

end Sys2Proof.Machine
end

