-- ==== Sys2Proof/Laws/Codes.lean ====
section
/-!
SUPPORT. What the function classes, width codes and register indices of the meanings are in the terms of Safety.lean:
each is one check over the 256 bytes.
-/

namespace Sys2Proof.Machine

/-- Extra header bytes by class are those of the codes (30_encoding R90). -/
theorem xhdr_fclass : ∀ f : Byte, xhdr (fclass f) = extraHeader f := by decide +kernel

/-- The exception bit is bit 7 (30_encoding R88). -/
theorem exceptionBit_eq : ∀ f : Byte, exceptionBit f = decide (0x80 ≤ f.toNat) := by decide +kernel

theorem plainRequest_iff : ∀ f : Byte,
    PlainRequest f ↔ fclass f = .rdBits ∨ fclass f = .rdRegs ∨ fclass f = .wrSingle := by
  unfold PlainRequest; decide +kernel

theorem multiRequest_iff : ∀ f : Byte, MultiRequest f ↔ fclass f = .wrMulti := by
  unfold MultiRequest; decide +kernel

theorem bareRequest_iff : ∀ f : Byte, BareRequest f ↔ fclass f = .excStatus ∨ fclass f = .slaveId := by
  unfold BareRequest; decide +kernel

theorem fclass_rdBits_iff : ∀ f : Byte, fclass f = .rdBits ↔ f ∈ [0x01#8, 0x02#8] := by decide +kernel

theorem fclass_rdRegs_iff : ∀ f : Byte, fclass f = .rdRegs ↔ f ∈ [0x03#8, 0x04#8] := by decide +kernel

theorem fclass_wrSingle_iff : ∀ f : Byte, fclass f = .wrSingle ↔ f ∈ [0x05#8, 0x06#8] := by decide +kernel

theorem fclass_wrMulti_iff : ∀ f : Byte, fclass f = .wrMulti ↔ f ∈ [0x0F#8, 0x10#8] := by decide +kernel

theorem fclass_excStatus_iff : ∀ f : Byte, fclass f = .excStatus ↔ f = 0x07#8 := by decide +kernel

theorem fclass_slaveId_iff : ∀ f : Byte, fclass f = .slaveId ↔ f = 0x11#8 := by decide +kernel

theorem requestNeed_le : ∀ f : Byte,
    requestNeed (fclass f) =
      if fclass f = .wrMulti then 6
      else if fclass f = .rdBits ∨ fclass f = .rdRegs ∨ fclass f = .wrSingle then 5 else 1 := by decide +kernel

/-- DECREQ's need is the function byte and the extra header of a request (42_predict_decode R163). -/
theorem five_le_requestNeed_iff : ∀ f : Byte, 5 ≤ requestNeed (fclass f) ↔ 4 ≤ extraHeader f := by decide +kernel

theorem requestNeed_eq_six_iff : ∀ f : Byte, requestNeed (fclass f) = 6 ↔ extraHeader f = 5 := by decide +kernel

/-- DECREQ's comparison of function codes: the response's low seven bits (42_predict_decode R164). -/
theorem and_seven_bits (f g : Byte) : f &&& 0x7F#8 = g ↔ f.toNat % 128 = g.toNat := by
  have h : (f &&& 0x7F#8).toNat = f.toNat % 128 := by
    rw [BitVec.toNat_and]; exact Nat.and_two_pow_sub_one_eq_mod f.toNat 7
  rw [← h]
  exact ⟨fun e => by rw [e], fun e => BitVec.eq_of_toNat_eq e⟩

/-- A buffer select is legal exactly when it selects a buffer (30_encoding R96). -/
theorem bufferOf_eq_some_iff : ∀ (b : Byte) (buf : Buffer), bufferOf b = some buf ↔ Selects b buf := by
  intro b buf
  cases buf
  · simp [bufferOf, Selects]
  · by_cases h : b = 0#8
    · simp [bufferOf, Selects, h]
    · simp [bufferOf, Selects, h]

theorem bufferOf_eq_none_iff : ∀ b : Byte, bufferOf b = none ↔ 1 < b.toNat := by decide +kernel

theorem bufferOf_isSome : ∀ b : Byte, (bufferOf b).isSome = legalBuffer b := by decide +kernel

theorem widthOf_isSome : ∀ w : Byte, (widthOf w).isSome = legalWidth w := by decide +kernel

theorem widthOf_eq_none_iff : ∀ w : Byte, widthOf w = none ↔ 9 < w.toNat := by decide +kernel

/-- A legal width code: its bytes per value, and whether it is decoded (30_encoding R92). -/
theorem widthOf_spec : ∀ w : Byte, w.toNat ≤ 9 →
    ∃ width, widthOf w = some width ∧ bpv width = bytesPerValue w ∧ width.supported = decide (w.toNat ≤ 5) := by
  have h : ∀ w : Byte, w.toNat ≤ 9 → (match widthOf w with
      | some width => decide (bpv width = bytesPerValue w ∧ width.supported = decide (w.toNat ≤ 5))
      | none => false) = true := by decide +kernel
  intro w hw
  have := h w hw
  cases hx : widthOf w with
  | none => simp [hx] at this
  | some width => exact ⟨width, rfl, by simpa [hx] using this⟩

/-- The registers CFGW reaches (44_buffer_config R231). -/
theorem cfgRegOf_isSome (reg : Byte) (value : Word) : (cfgRegOf reg value).isSome = legalWrite reg value := by
  by_cases h0 : reg = 0#8
  · subst h0
    simp only [cfgRegOf, legalWrite]
    by_cases h1 : value = 0#32
    · subst h1; rfl
    · by_cases h2 : value = 1#32
      · subst h2; rfl
      · have : ¬value.toNat ≤ 1 := by
          intro hle
          have : value.toNat ≠ 0 := fun e => h1 (BitVec.eq_of_toNat_eq e)
          have : value.toNat ≠ 1 := fun e => h2 (BitVec.eq_of_toNat_eq e)
          omega
        simp [h1, h2, this]
  · have hn : reg.toNat ≠ 0 := fun e => h0 (BitVec.eq_of_toNat_eq e)
    have h : ∀ reg : Byte, reg.toNat ≠ 0 →
        ((if reg = 1#8 then some CfgReg.tFirst else if reg = 2#8 then some .tEof
          else if reg = 3#8 then some .tResp else none).isSome) = decide (reg.toNat ≤ 3) := by decide +kernel
    simp [cfgRegOf, legalWrite, h0, hn, h reg hn]

/-- The registers CFGR reaches (44_buffer_config R232). -/
theorem statusRegister_isSome (s : State) (reg : Byte) : (s.statusRegister reg).isSome = legalRead reg := by
  have h : ∀ reg : Byte,
      (if reg = 0#8 then true else if reg = 1#8 then true else if reg = 2#8 then true else if reg = 3#8 then true
        else if reg = 8#8 then true else if reg = 9#8 then true else if reg = 10#8 then true
        else if reg = 11#8 then true else if reg = 12#8 then true else if reg = 13#8 then true
        else if reg = 14#8 then true else if reg = 15#8 then true else if reg = 16#8 then true
        else if reg = 17#8 then true else false) = legalRead reg := by decide +kernel
  rw [← h reg]
  simp only [State.statusRegister, apply_ite Option.isSome, Option.isSome_some, Option.isSome_none]

end Sys2Proof.Machine
end

