-- ==== Sys2Proof/Laws/Reading.lean ====
section
/-!
SUPPORT. What each read of a buffer answers when the buffer holds a list of bytes; and the one inversion lemma of
`withRead`.
-/

namespace Sys2Proof.Machine

@[simp] theorem withRead_some {α : Type} (a : α) (k : α → Result) : withRead (some a) k = k a := rfl

@[simp] theorem withRead_none {α : Type} (k : α → Result) : withRead none k = .fault .unvaluedByte := rfl

/-- If a read goes on to a next state, the byte had a value. -/
theorem withRead_eq_next {α : Type} {o : Option α} {k : α → Result} {t : State} (h : withRead o k = .next t) :
    ∃ a, o = some a ∧ k a = .next t := by
  cases o with
  | none => simp at h
  | some a => exact ⟨a, rfl, h⟩

theorem State.Holds.length {s : State} {b : Buffer} {bs : List Byte} (h : s.Holds b bs) :
    s.vlen b = bs.length := h.1

theorem State.Holds.byteAt {s : State} {b : Buffer} {bs : List Byte} (h : s.Holds b bs) (i : Nat) :
    s.byteAt b i = bs[i]? := by
  unfold State.byteAt
  rw [h.1]
  by_cases hi : i < bs.length
  · rw [if_pos hi, h.2 i]
  · rw [if_neg hi, List.getElem?_eq_none (by omega)]

theorem State.Holds.byteAt_getD {s : State} {b : Buffer} {bs : List Byte} (h : s.Holds b bs) {i : Nat}
    (hi : i < bs.length) : s.byteAt b i = some (bs.getD i 0#8) := by
  rw [h.byteAt, List.getD_eq_getElem?_getD, List.getElem?_eq_getElem hi, Option.getD_some]

theorem State.Holds.bytesAt {s : State} {b : Buffer} {bs : List Byte} (h : s.Holds b bs) {i n : Nat}
    (hn : i + n ≤ bs.length) : s.bytesAt b i n = some ((bs.drop i).take n) := by
  unfold State.bytesAt
  rw [h.1, if_pos hn, Memory.readRange_holds h.2 i n hn]

theorem State.Holds.be16At {s : State} {b : Buffer} {bs : List Byte} (h : s.Holds b bs) {i : Nat}
    (hi : i + 1 < bs.length) : s.be16At b i = some (field16 bs i) := by
  unfold State.be16At
  rw [h.byteAt_getD (by omega : i < bs.length), h.byteAt_getD hi]
  rfl

theorem State.Holds.bodyLen {s : State} {b : Buffer} {bs : List Byte} (h : s.Holds b bs) :
    s.bodyLen b = s.bodyOf bs b := by
  have hl := h.1
  cases b <;> simp only [State.vlen] at hl <;> simp [State.bodyLen, State.bodyOf, hl]

theorem State.bodyOf_le (s : State) (bs : List Byte) (b : Buffer) : s.bodyOf bs b ≤ bs.length := by
  cases b
  · simp only [State.bodyOf]
    split
    · exact Nat.sub_le _ _
    · exact Nat.le_refl _
  · exact Nat.sub_le _ _

/-- The verification predicate on a list of bytes (40_checksum R126). -/
theorem State.Holds.crcOk {s : State} {b : Buffer} {bs : List Byte} (h : s.Holds b bs) {n : Nat} (h2 : 2 ≤ n)
    (hn : n ≤ bs.length) :
    s.crcOk b n = some (decide (crc16 (bs.take (n - 2)) = field16 bs (n - 2))) := by
  unfold State.crcOk
  rw [if_neg (by omega), h.bytesAt (by omega), h.byteAt_getD (by omega : n - 2 < bs.length),
    h.byteAt_getD (by omega : n - 1 < bs.length)]
  have : n - 2 + 1 = n - 1 := by omega
  simp [crcMatches, field16, this]

/-- `EndsInCrc` of the first `n` bytes. -/
theorem endsInCrc_take {bs : List Byte} {n : Nat} (h2 : 2 ≤ n) (hn : n ≤ bs.length) :
    EndsInCrc (bs.take n) ↔ crc16 (bs.take (n - 2)) = field16 bs (n - 2) := by
  have hl : (bs.take n).length = n := by simp; omega
  have h1 : (bs.take n).getD (n - 2) 0#8 = bs.getD (n - 2) 0#8 := by
    rw [List.getD_eq_getElem?_getD, List.getD_eq_getElem?_getD, List.getElem?_take_of_lt (by omega)]
  have h3 : (bs.take n).getD (n - 2 + 1) 0#8 = bs.getD (n - 2 + 1) 0#8 := by
    rw [List.getD_eq_getElem?_getD, List.getD_eq_getElem?_getD, List.getElem?_take_of_lt (by omega)]
  simp only [EndsInCrc, hl, field16, h1, h3, List.take_take]
  rw [Nat.min_eq_left (by omega : n - 2 ≤ n)]
  exact ⟨fun h => h.2, fun h => ⟨h2, h⟩⟩

theorem endsInCrc_iff {bs : List Byte} (h2 : 2 ≤ bs.length) :
    EndsInCrc bs ↔ crc16 (bs.take (bs.length - 2)) = field16 bs (bs.length - 2) :=
  ⟨fun h => h.2, fun h => ⟨h2, h⟩⟩

/-- A filled buffer holds some list of bytes, as long as its valid length. -/
theorem State.exists_holds {s : State} {b : Buffer} (h : Memory.Filled (s.buf b) (s.vlen b)) :
    ∃ bs, s.Holds b bs := by
  obtain ⟨bs, hl, hb⟩ := h.holds
  exact ⟨bs, hl.symm, hb⟩

/-- A filled buffer has every byte below its valid length. -/
theorem State.byteAt_isSome {s : State} {b : Buffer} (h : Memory.Filled (s.buf b) (s.vlen b)) {i : Nat}
    (hi : i < s.vlen b) : ∃ x, s.byteAt b i = some x := by
  obtain ⟨bs, hb⟩ := State.exists_holds h
  rw [hb.byteAt_getD (by rw [← hb.1]; exact hi)]
  exact ⟨_, rfl⟩

-- Reads of a buffer look at the buffer and its length alone.

@[simp] theorem State.byteAt_done (s : State) (c : Status) (b : Buffer) (i : Nat) :
    (s.done c).byteAt b i = s.byteAt b i := by cases b <;> rfl

@[simp] theorem State.byteAt_setR0 (s : State) (v : Word) (b : Buffer) (i : Nat) :
    (s.setR0 v).byteAt b i = s.byteAt b i := by cases b <;> rfl

/-- Two states whose buffer and length agree hold the same bytes there. -/
theorem State.holds_txb_congr {s t : State} {bs : List Byte} (hb : t.txb = s.txb) (hl : t.txLen = s.txLen)
    (h : s.Holds .txb bs) : t.Holds .txb bs := by
  obtain ⟨h1, h2⟩ := h
  exact ⟨by simpa [State.vlen, hl] using h1, by simpa [State.buf, hb] using h2⟩

theorem State.holds_rxb_congr {s t : State} {bs : List Byte} (hb : t.rxb = s.rxb) (hl : t.rxLen = s.rxLen)
    (h : s.Holds .rxb bs) : t.Holds .rxb bs := by
  obtain ⟨h1, h2⟩ := h
  exact ⟨by simpa [State.vlen, hl] using h1, by simpa [State.buf, hb] using h2⟩

/-- An empty buffer holds nothing. -/
theorem State.holds_rxb_nil {s : State} (hb : s.rxb = []) (hl : s.rxLen = 0#9) : s.Holds .rxb [] :=
  ⟨by simp [State.vlen, hl], by simp [State.buf, hb]⟩

theorem State.holds_txb_nil {s : State} (hb : s.txb = []) (hl : s.txLen = 0#9) : s.Holds .txb [] :=
  ⟨by simp [State.vlen, hl], by simp [State.buf, hb]⟩

/-- A length below 512 is stored whole. -/
theorem toNat_toLen {n : Nat} (h : n < 512) : (toLen n).toNat = n := by
  simp [toLen, Nat.mod_eq_of_lt h]

theorem toLen_toNat (l : Len) : toLen l.toNat = l := by simp [toLen]

end Sys2Proof.Machine
end

