-- ==== Sys2Proof/Laws/Receiver.lean ====
section
/-!
SUPPORT. What each procedure of the receiver answers when RXB holds a list of bytes (43_receiver R202 to R208), and what
each can leave behind.
-/

namespace Sys2Proof.Machine

/-- The lengths of the two modes (10_state R25, 30_encoding R80, R82). -/
theorem State.mode_lengths (s : State) :
    (s.mode = .rtu ∧ s.h = 1 ∧ s.ck = 2 ∧ s.maxAdu = 256 ∧ Config.excLen s.mode = 5) ∨
      (s.mode = .tcp ∧ s.h = 7 ∧ s.ck = 0 ∧ s.maxAdu = 260 ∧ Config.excLen s.mode = 9) := by
  cases h : s.mode
  · exact .inl ⟨rfl, by simp [State.h, h, Config.hdr], by simp [State.ck, h, Config.ck],
      by simp [State.maxAdu, h, Config.maxAdu], rfl⟩
  · exact .inr ⟨rfl, by simp [State.h, h, Config.hdr], by simp [State.ck, h, Config.ck],
      by simp [State.maxAdu, h, Config.maxAdu], rfl⟩

theorem State.receiving_iff (s : State) :
    s.receiving = true ↔ s.rxState = .awaitFunction ∨ s.rxState = .awaitRemainder := by
  unfold State.receiving
  cases s.rxState <;> simp

theorem extraHeader_le : ∀ f : Byte, extraHeader f ≤ 5 := by decide +kernel

/-- A function byte without extra header announces no payload and is no exception. -/
theorem extraHeader_eq_zero : ∀ f : Byte, extraHeader f = 0 →
    fclass f ≠ .wrMulti ∧ fclass f ≠ .slaveId ∧ f.toNat < 0x80 := by decide +kernel

/-- The trailing payload the receiver computes (30_encoding R91). -/
theorem State.Holds.xpay {s : State} {bs : List Byte} (h : s.Holds .rxb bs)
    (hl : s.h + 1 + extraHeader (bs.getD s.h 0#8) ≤ bs.length) :
    s.xpay (fclass (bs.getD s.h 0#8)) = some (trailingPayload s.h bs) := by
  have hm := fclass_wrMulti_iff (bs.getD s.h 0#8)
  have hs := fclass_slaveId_iff (bs.getD s.h 0#8)
  by_cases h1 : bs.getD s.h 0#8 ∈ [0x0F#8, 0x10#8]
  · have h5 : extraHeader (bs.getD s.h 0#8) = 5 := by
      simp only [List.mem_cons, List.not_mem_nil, or_false] at h1
      rcases h1 with h1 | h1 <;> rw [h1] <;> decide
    rw [hm.mpr h1, State.xpay, h.byteAt_getD (by omega : s.h + 5 < bs.length), trailingPayload, if_pos h1]
    rfl
  · by_cases h2 : bs.getD s.h 0#8 = 0x11#8
    · have h3 : extraHeader (bs.getD s.h 0#8) = 1 := by rw [h2]; decide
      rw [hs.mpr h2, State.xpay, h.byteAt_getD (by omega : s.h + 1 < bs.length), trailingPayload, if_neg h1,
        if_pos h2]
      rfl
    · rw [trailingPayload, if_neg h1, if_neg h2]
      have h3 := fun e => h1 (hm.mp e)
      have h4 := fun e => h2 (hs.mp e)
      generalize fclass (bs.getD s.h 0#8) = c at *
      cases c <;> first | rfl | exact absurd rfl h3 | exact absurd rfl h4

/-- The checksum test is the acceptance of a whole frame (43_receiver R204). -/
theorem State.Holds.frameGood {s : State} {bs : List Byte} (h : s.Holds .rxb bs) (hl : s.h + s.ck ≤ bs.length) :
    ∃ b, s.frameGood = some b ∧ (b = true ↔ FrameAccepted s.mode bs) := by
  have hlen : s.rxLen.toNat = bs.length := h.1
  rcases s.mode_lengths with ⟨hm, hh, hc, -⟩ | ⟨hm, hh, hc, -⟩
  · rw [State.frameGood, hm, hlen]
    have h2 : 2 ≤ bs.length := by omega
    refine ⟨_, h.crcOk h2 (Nat.le_refl _), ?_⟩
    simp [FrameAccepted, EndsInCrc, h2]
  · rw [State.frameGood, hm]
    exact ⟨true, rfl, by simp [FrameAccepted]⟩

/-- `finish()` on a frame that is accepted (43_receiver R204). -/
theorem State.Holds.finish_accepted {s : State} {bs : List Byte} (h : s.Holds .rxb bs) (hl : s.h + s.ck ≤ bs.length)
    (h1 : s.h < bs.length) (ha : FrameAccepted s.mode bs) :
    s.finish = .next
      (s.completeWith (if 0x80 ≤ (bs.getD s.h 0#8).toNat then .remoteException else .ok)) := by
  obtain ⟨b, hb, hiff⟩ := h.frameGood hl
  rw [State.finish, hb, withRead_some, if_neg (by rw [hiff.mpr ha]; decide), h.byteAt_getD h1, withRead_some]
  simp only [exceptionBit_eq, decide_eq_true_eq]

/-- `finish()` on a frame that is not (43_receiver R204). -/
theorem State.Holds.finish_rejected {s : State} {bs : List Byte} (h : s.Holds .rxb bs) (hl : s.h + s.ck ≤ bs.length)
    (ha : ¬FrameAccepted s.mode bs) : s.finish = .next (s.rxFault .invalidCrc) := by
  obtain ⟨b, hb, hiff⟩ := h.frameGood hl
  rw [State.finish, hb, withRead_some, if_pos]
  cases b
  · rfl
  · exact absurd (hiff.mp rfl) ha

/-- `advance()` on the function byte (43_receiver R203): its extra header first; where it has none, the total is
known. -/
theorem State.advance_awaitFunction {s : State} {f : Byte} (hs : s.rxState = .awaitFunction)
    (hf : s.byteAt .rxb s.h = some f) :
    s.advance =
      if 0 < extraHeader f then
        .next
          { s with
            rxTotal := toLen (s.rxTotal.toNat + extraHeader f)
            rxNeed := toLen (extraHeader f)
            rxState := .awaitRemainder
            rxKnown := false }
      else State.lengthKnown { s with rxNeed := 0#9, rxState := .awaitRemainder, rxKnown := false } s.ck := by
  rw [State.advance, if_pos hs, hf, withRead_some, xhdr_fclass]
  by_cases h : 0 < extraHeader f
  · rw [if_pos h, if_pos h]
  · have h0 : extraHeader f = 0 := by omega
    rw [if_neg h, if_neg h, State.advanceRemainder, if_neg (by simp), h0, Nat.add_zero, toLen_toNat]
    have hb : State.byteAt { s with rxNeed := toLen 0, rxState := .awaitRemainder, rxKnown := false } .rxb
        (State.h { s with rxNeed := toLen 0, rxState := .awaitRemainder, rxKnown := false }) = some f := hf
    rw [hb, withRead_some]
    obtain ⟨h1, h2, -⟩ := extraHeader_eq_zero f h0
    have hx : ∀ t : State, t.xpay (fclass f) = some 0 := by
      intro t
      generalize fclass f = c at *
      cases c <;> first | rfl | exact absurd rfl h1 | exact absurd rfl h2
    rw [hx, withRead_some, Nat.zero_add]
    rfl

/-- `advance()` once the total is known (43_receiver R203). -/
theorem State.advance_known {s : State} (hs : s.rxState = .awaitRemainder) (hk : s.rxKnown = true) :
    s.advance = s.finish := by
  rw [State.advance, if_neg (by simp [hs]), State.advanceRemainder, if_pos hk]

/-- `advance()` on the last extra header byte (43_receiver R203). -/
theorem State.Holds.advance_unknown {s : State} {bs : List Byte} (h : s.Holds .rxb bs)
    (hs : s.rxState = .awaitRemainder) (hk : s.rxKnown = false)
    (hl : s.h + 1 + extraHeader (bs.getD s.h 0#8) ≤ bs.length) :
    s.advance = s.lengthKnown (trailingPayload s.h bs + s.ck) := by
  rw [State.advance, if_neg (by simp [hs]), State.advanceRemainder, if_neg (by simp [hk]),
    h.byteAt_getD (by omega : s.h < bs.length), withRead_some, h.xpay hl, withRead_some]

/-- The total is above the mode's maximum (43_receiver R203). -/
theorem State.lengthKnown_over {s : State} {p : Nat} (h : s.maxAdu < s.rxTotal.toNat + p) :
    s.lengthKnown p =
      .next
        { s with
          rxTotal := toLen (s.rxTotal.toNat + p), rxState := .faulted, rxResult := .invalidData, rxTimer := 0#32 } := by
  rw [State.lengthKnown, if_pos h]
  rfl

/-- The total is known and more bytes follow (43_receiver R203). -/
theorem State.lengthKnown_pos {s : State} {p : Nat} (h : s.rxTotal.toNat + p ≤ s.maxAdu) (hp : 0 < p) :
    s.lengthKnown p =
      .next { s with rxTotal := toLen (s.rxTotal.toNat + p), rxNeed := toLen p, rxKnown := true } := by
  rw [State.lengthKnown, if_neg (by omega), if_pos hp]

/-- The total is known and reached, which happens in TCP mode only: the frame completes (43_receiver R203, R204). -/
theorem State.Holds.lengthKnown_zero {s : State} {bs : List Byte} (h : s.Holds .rxb bs)
    (ht : s.rxTotal.toNat ≤ s.maxAdu) (hl : s.h + s.ck ≤ bs.length) (h1 : s.h < bs.length)
    (ha : FrameAccepted s.mode bs) :
    s.lengthKnown 0 =
      .next
        { s with
          rxState := .complete
          rxResult := (if 0x80 ≤ (bs.getD s.h 0#8).toNat then .remoteException else .ok)
          rxTimer := 0#32
          rxNeed := 0#9
          rxTotal := s.rxLen
          rxKnown := true } := by
  rw [State.lengthKnown, if_neg (by omega), if_neg (by omega)]
  have hh : State.Holds
      { s with rxTotal := toLen (s.rxTotal.toNat + 0), rxNeed := toLen 0, rxKnown := true } .rxb bs :=
    State.holds_rxb_congr rfl rfl h
  rw [hh.finish_accepted hl h1 ha]
  rfl

/-- A byte stored at the end of RXB (43_receiver R202). -/
theorem State.Holds.storeByte {s : State} {bs : List Byte} (h : s.Holds .rxb bs) (hl : bs.length < 260) (d : Byte) :
    (s.storeByte d).Holds .rxb (bs ++ [d]) := by
  have hlen : s.rxLen.toNat = bs.length := h.1
  constructor
  · simp [State.vlen, State.storeByte, hlen, toNat_toLen (n := bs.length + 1) (by omega)]
  · simpa [State.buf, State.storeByte, hlen] using Memory.holds_append d h.2

/-- A byte arrives (43_receiver R202): it is stored, and ends its segment when it was the last one needed. -/
theorem State.Holds.takeByte {s : State} {bs : List Byte} (h : s.Holds .rxb bs) (hr : s.receiving = true)
    (hl : bs.length < 260) (d : Byte) :
    Machine.takeByte d s =
      if s.rxNeed.toNat ≤ 1 then (s.storeByte d).advance else .next (s.storeByte d) := by
  have hlen : s.rxLen.toNat = bs.length := h.1
  have hneed : (s.storeByte d).rxNeed = 0#9 ↔ s.rxNeed.toNat ≤ 1 := by
    have := s.rxNeed.isLt
    simp only [State.storeByte, toLen]
    constructor
    · intro e
      have := congrArg BitVec.toNat e
      simp at this
      omega
    · intro e
      rw [show s.rxNeed.toNat - 1 = 0 by omega]
  rw [Machine.takeByte, if_neg (by simp [hr]), if_neg (by rw [hlen]; simp [Config.bufSize]; omega)]
  simp only [hneed]

/-- Every instruction that brings a byte is the arrival of that byte (log entry 4). -/
theorem exec_of_brings {i : Instr} {d : Byte} (h : brings i = some d) (s : State) : exec i s = takeByte d s := by
  cases i <;> simp only [brings, reduceCtorEq, Option.some.injEq] at h
  case fcException f =>
    have hf : ∀ f : BitVec 7, BitVec.ofNat 8 (128 + f.toNat) = 1#1 ++ f := by decide +kernel
    rw [← h, hf]
    rfl
  all_goals (subst h; rfl)

/-- The wait expires at a TICK with at most one tick left (43_receiver R207). -/
theorem execTick_last {s : State} (hr : s.receiving = true) (h : s.rxTimer.toNat ≤ 1) : execTick s = s.timeout := by
  rw [execTick, if_neg (by simp [hr]), if_neg (by omega)]

/-- A TICK with more than one tick left counts down (43_receiver R207). -/
theorem execTick_down {s : State} (hr : s.receiving = true) (h : 1 < s.rxTimer.toNat) :
    execTick s = .next { s with rxTimer := s.rxTimer - 1#32 } := by
  rw [execTick, if_neg (by simp [hr]), if_pos h]

-- What the procedures can leave behind: if one answers a next state, that state is one of these.

theorem State.finish_eq_next {s t : State} (h : s.finish = .next t) :
    (∃ f, s.frameGood = some true ∧ s.byteAt .rxb s.h = some f ∧
        t = s.completeWith (if exceptionBit f = true then .remoteException else .ok)) ∨
      (s.frameGood = some false ∧ t = s.rxFault .invalidCrc) := by
  obtain ⟨b, hb, h⟩ := withRead_eq_next h
  cases b
  · exact .inr ⟨hb, by simpa using h.symm⟩
  · rw [if_neg (by decide)] at h
    obtain ⟨f, hf, h⟩ := withRead_eq_next h
    exact .inl ⟨f, hb, hf, by simpa using h.symm⟩

theorem State.timeout_eq_next {s t : State} (h : s.timeout = .next t) :
    t = s.rxFault .timeout ∨
      (s.rxKind = .fixed ∧ s.rxLen.toNat = Config.excLen s.mode ∧
        ((s.frameGood = some false ∧ t = s.rxFault .invalidCrc) ∨
          ∃ f, s.frameGood = some true ∧ s.byteAt .rxb s.h = some f ∧ exceptionBit f = true ∧
            t = s.completeWith .remoteException)) := by
  rw [State.timeout] at h
  split at h
  · rename_i hc
    obtain ⟨b, hb, h⟩ := withRead_eq_next h
    cases b
    · exact .inr ⟨hc.1, hc.2, .inl ⟨hb, by simpa using h.symm⟩⟩
    · rw [if_neg (by decide)] at h
      obtain ⟨f, hf, h⟩ := withRead_eq_next h
      split at h
      · rename_i hx
        exact .inr ⟨hc.1, hc.2, .inr ⟨f, hb, hf, hx, by simpa using h.symm⟩⟩
      · exact .inl (by simpa using h.symm)
  · exact .inl (by simpa using h.symm)

theorem takeByte_eq_next {s t : State} {d : Byte} (h : takeByte d s = .next t) :
    s.receiving = true ∧ s.rxLen.toNat < 260 ∧
      (((s.storeByte d).rxNeed = 0#9 ∧ (s.storeByte d).advance = .next t) ∨
        ((s.storeByte d).rxNeed ≠ 0#9 ∧ t = s.storeByte d)) := by
  rw [takeByte] at h
  split at h
  · cases h
  · rename_i hr
    split at h
    · cases h
    · rename_i hl
      refine ⟨by simpa using hr, by simpa [Config.bufSize] using hl, ?_⟩
      split at h
      · rename_i hn
        exact .inl ⟨hn, h⟩
      · rename_i hn
        exact .inr ⟨hn, by simpa using h.symm⟩

end Sys2Proof.Machine
end

