-- ==== Sys2Proof/Laws/Commands.lean ====
section
/-!
SUPPORT. Everything each command can do: if its meaning answers a next state, that state is the refusal of 00_scope R10
or the command's own effect.
-/

namespace Sys2Proof.Machine

/-- `t` is what a refused command leaves of `s`: `sta` and nothing else (00_scope R10, 60_exceptions R257). -/
def Refuses (s t : State) : Prop :=
  ∃ c : Status, c ≠ .ok ∧ c ≠ .remoteException ∧ c.commandCode = true ∧ t = s.done c

theorem refuses_of_refuse {s t : State} {c : Status} (h : refuse c s = .next t)
    (hc : c ≠ .ok ∧ c ≠ .remoteException ∧ c.commandCode = true) : Refuses s t := by
  simp only [refuse, Host.Outcome.next.injEq] at h
  exact ⟨c, hc.1, hc.2.1, hc.2.2, h.symm⟩

theorem eq_of_finishCommand {s t : State} {c : Status} (h : finishCommand c s = .next t) : t = s.done c := by
  simpa [finishCommand] using h.symm

theorem execNop_eq_next {s t : State} (h : execNop s = .next t) : t = s.done .ok := eq_of_finishCommand h

theorem execTxclr_eq_next {s t : State} (h : execTxclr s = .next t) :
    t = State.done { s with txLen := 0#9, txFinal := false, txb := [] } .ok := eq_of_finishCommand h

theorem execCfgw_eq_next {s t : State} {reg : Byte} {value : Word} (h : execCfgw reg value s = .next t) :
    Refuses s t ∨
      (s.receiving = false ∧ ∃ target, cfgRegOf reg value = some target ∧ t = (s.configure value target).done .ok) := by
  unfold execCfgw at h
  split at h
  · exact .inl (refuses_of_refuse h (by decide))
  · rename_i target ht
    split at h
    · exact .inl (refuses_of_refuse h (by decide))
    · rename_i hr
      exact .inr ⟨by simpa using hr, target, ht, eq_of_finishCommand h⟩

theorem execCfgr_eq_next {s t : State} {reg : Byte} (h : execCfgr reg s = .next t) :
    Refuses s t ∨ ∃ v, t = (s.setR0 v).done .ok := by
  unfold execCfgr at h
  split at h
  · exact .inl (refuses_of_refuse h (by decide))
  · exact .inr ⟨_, eq_of_finishCommand h⟩

theorem execCrc16_eq_next {s t : State} {b : Byte} {len : Half} (h : execCrc16 b len s = .next t) :
    Refuses s t ∨ ∃ v, t = (s.setR0 v).done .ok := by
  unfold execCrc16 at h
  split at h
  · exact .inl (refuses_of_refuse h (by decide))
  · split at h
    · exact .inl (refuses_of_refuse h (by decide))
    · split at h
      · exact .inl (refuses_of_refuse h (by decide))
      · obtain ⟨_, -, h⟩ := withRead_eq_next h
        exact .inr ⟨_, eq_of_finishCommand h⟩

theorem execCrcv_eq_next {s t : State} {b : Byte} {len : Half} (h : execCrcv b len s = .next t) :
    Refuses s t ∨ ∃ v, t = (s.setR0 v).done .ok := by
  unfold execCrcv at h
  split at h
  · exact .inl (refuses_of_refuse h (by decide))
  · split at h
    · exact .inl (refuses_of_refuse h (by decide))
    · split at h
      · exact .inl (refuses_of_refuse h (by decide))
      · obtain ⟨_, -, h⟩ := withRead_eq_next h
        split at h
        · exact .inr ⟨_, eq_of_finishCommand h⟩
        · exact .inl ⟨.invalidCrc, by decide, by decide, rfl, eq_of_finishCommand h⟩

theorem execLdb_eq_next {s t : State} {b : Byte} {idx : Half} (h : execLdb b idx s = .next t) :
    Refuses s t ∨ ∃ v, t = (s.setR0 v).done .ok := by
  unfold execLdb at h
  split at h
  · exact .inl (refuses_of_refuse h (by decide))
  · split at h
    · exact .inl (refuses_of_refuse h (by decide))
    · split at h
      · exact .inl (refuses_of_refuse h (by decide))
      · obtain ⟨_, -, h⟩ := withRead_eq_next h
        exact .inr ⟨_, eq_of_finishCommand h⟩

theorem execPushb_eq_next {s t : State} {byte : Byte} (h : execPushb byte s = .next t) :
    Refuses s t ∨
      (s.txFinal = false ∧ s.txLen.toNat < s.maxAdu - s.ck ∧
        t = State.done
          { s with
            txb := Memory.write s.txb s.txLen.toNat byte
            txLen := toLen (s.txLen.toNat + 1)
            r0 := BitVec.ofNat 32 (s.txLen.toNat + 1) } .ok) := by
  unfold execPushb at h
  split at h
  · exact .inl (refuses_of_refuse h (by decide))
  · rename_i hf
    split at h
    · exact .inl (refuses_of_refuse h (by decide))
    · rename_i hl
      exact .inr ⟨by simpa using hf, by omega, eq_of_finishCommand h⟩

theorem execBldreq_eq_next {s t : State} {slave function : Byte} {addr count : Half}
    (h : execBldreq slave function addr count s = .next t) :
    Refuses s t ∨
      t = State.done { s.build (s.requestFrame slave function addr count) with tid := s.nextTid } .ok := by
  unfold execBldreq at h
  split at h
  · exact .inl (refuses_of_refuse h (by decide))
  · exact .inr (eq_of_finishCommand h)

theorem execBldrsp_eq_next {s t : State} {function : Byte} (h : execBldrsp function s = .next t) :
    Refuses s t ∨
      (s.rxState = .complete ∧ ∃ frame, s.responseHeader function = some frame ∧ t = (s.build frame).done .ok) := by
  unfold execBldrsp at h
  split at h
  · exact .inl (refuses_of_refuse h (by decide))
  · split at h
    · exact .inl (refuses_of_refuse h (by decide))
    · rename_i hc
      obtain ⟨frame, hf, h⟩ := withRead_eq_next h
      exact .inr ⟨by simpa using hc, frame, hf, eq_of_finishCommand h⟩

theorem execBldexc_eq_next {s t : State} {code : Byte} (h : execBldexc code s = .next t) :
    Refuses s t ∨
      (s.rxState = .complete ∧ ∃ f frame, s.responseHeader f = some frame ∧ t = (s.build (frame ++ [code])).done .ok) := by
  unfold execBldexc at h
  split at h
  · exact .inl (refuses_of_refuse h (by decide))
  · split at h
    · exact .inl (refuses_of_refuse h (by decide))
    · rename_i hc
      obtain ⟨f, -, h⟩ := withRead_eq_next h
      obtain ⟨frame, hf, h⟩ := withRead_eq_next h
      exact .inr ⟨by simpa using hc, _, frame, hf, eq_of_finishCommand h⟩

theorem execFinal_eq_next {s t : State} (h : execFinal s = .next t) :
    Refuses s t ∨
      (s.txFinal = false ∧ s.h + 1 ≤ s.txLen.toNat ∧ s.txLen.toNat + s.ck ≤ s.maxAdu ∧
        ((s.mode = .rtu ∧ ∃ r, t = (s.appendCrc r).done .ok) ∨ (s.mode = .tcp ∧ t = s.fillLength.done .ok))) := by
  unfold execFinal at h
  split at h
  · exact .inl (refuses_of_refuse h (by decide))
  · rename_i hf
    rw [not_or] at hf
    split at h
    · exact .inl (refuses_of_refuse h (by decide))
    · rename_i hl
      refine .inr ⟨by simpa using hf.1, by omega, by omega, ?_⟩
      split at h
      · rename_i hm
        obtain ⟨bs, -, h⟩ := withRead_eq_next h
        exact .inl ⟨hm, _, eq_of_finishCommand h⟩
      · rename_i hm
        exact .inr ⟨hm, eq_of_finishCommand h⟩

theorem execPredict_eq_next {s t : State} {w : Byte} (h : execPredict w s = .next t) :
    Refuses s t ∨ ∃ n, t = (s.predicted n).done .ok := by
  unfold execPredict at h
  split at h
  · exact .inl (refuses_of_refuse h (by decide))
  · split at h
    · exact .inl (refuses_of_refuse h (by decide))
    · obtain ⟨f, -, h⟩ := withRead_eq_next h
      split at h
      · exact .inl (refuses_of_refuse h (by decide))
      · split at h
        · exact .inl (refuses_of_refuse h (by decide))
        · split at h
          · split at h
            · exact .inl (refuses_of_refuse h (by decide))
            · obtain ⟨n, -, h⟩ := withRead_eq_next h
              exact .inr ⟨_, eq_of_finishCommand h⟩
          · exact .inr ⟨_, eq_of_finishCommand h⟩

theorem execDecreq_eq_next {s t : State} {b : Byte} (h : execDecreq b s = .next t) :
    Refuses s t ∨ ∃ d, t = (s.deliver d).done .ok := by
  unfold execDecreq at h
  split at h
  · exact .inl (refuses_of_refuse h (by decide))
  · split at h
    · exact .inl (refuses_of_refuse h (by decide))
    · split at h
      · exact .inl (refuses_of_refuse h (by decide))
      · split at h
        · exact .inl (refuses_of_refuse h (by decide))
        · obtain ⟨f, -, h⟩ := withRead_eq_next h
          split at h
          · exact .inl (refuses_of_refuse h (by decide))
          · obtain ⟨d, -, h⟩ := withRead_eq_next h
            exact .inr ⟨d, eq_of_finishCommand h⟩

theorem execDecrsp_eq_next {s t : State} (h : execDecrsp s = .next t) :
    Refuses s t ∨ ∃ d, t = (s.deliver d).done .ok := by
  unfold execDecrsp at h
  split at h
  · exact .inl (refuses_of_refuse h (by decide))
  · split at h
    · exact .inl (refuses_of_refuse h (by decide))
    · obtain ⟨d, -, h⟩ := withRead_eq_next h
      exact .inr ⟨d, eq_of_finishCommand h⟩

theorem execChkqty_eq_next {s t : State} {w : Byte} (h : execChkqty w s = .next t) :
    Refuses s t ∨ ∃ v c, (c = .ok ∨ c = .remoteException) ∧ t = (s.setR0 v).done c := by
  unfold execChkqty at h
  split at h
  · exact .inl (refuses_of_refuse h (by decide))
  · split at h
    · exact .inl (refuses_of_refuse h (by decide))
    · split at h
      · exact .inl (refuses_of_refuse h (by decide))
      · split at h
        · obtain ⟨c, -, h⟩ := withRead_eq_next h
          exact .inr ⟨_, _, .inr rfl, eq_of_finishCommand h⟩
        · obtain ⟨f, -, h⟩ := withRead_eq_next h
          split at h
          · exact .inr ⟨_, _, .inl rfl, eq_of_finishCommand h⟩
          · split at h
            · exact .inl (refuses_of_refuse h (by decide))
            · obtain ⟨n, -, h⟩ := withRead_eq_next h
              unfold State.checkCount at h
              split at h
              · exact .inl (refuses_of_refuse h (by decide))
              · split at h
                · exact .inl (refuses_of_refuse h (by decide))
                · obtain ⟨bc, -, h⟩ := withRead_eq_next h
                  split at h
                  · exact .inl (refuses_of_refuse h (by decide))
                  · exact .inr ⟨_, _, .inl rfl, eq_of_finishCommand h⟩

theorem execUnpack_eq_next {s t : State} {w : Byte} {idx : Half} (h : execUnpack w idx s = .next t) :
    Refuses s t ∨ ∃ v, t = (s.setR0 v).done .ok := by
  unfold execUnpack at h
  split at h
  · exact .inl (refuses_of_refuse h (by decide))
  · split at h
    · exact .inl (refuses_of_refuse h (by decide))
    · split at h
      · exact .inl (refuses_of_refuse h (by decide))
      · split at h
        · exact .inl (refuses_of_refuse h (by decide))
        · unfold State.unpackValue at h
          split at h
          · exact .inl (refuses_of_refuse h (by decide))
          · obtain ⟨bc, -, h⟩ := withRead_eq_next h
            split at h
            · exact .inl (refuses_of_refuse h (by decide))
            · obtain ⟨bs, -, h⟩ := withRead_eq_next h
              exact .inr ⟨_, eq_of_finishCommand h⟩

theorem execRxfix_eq_next {s t : State} {e : Word} (h : execRxfix e s = .next t) :
    Refuses s t ∨ (s.receiving = false ∧ t = s.rejectLength.done .invalidData) ∨
      (s.receiving = false ∧ Config.excLen s.mode ≤ e.toNat ∧ e.toNat ≤ s.maxAdu ∧
        t = (s.armFixed e.toNat).done .ok) := by
  unfold execRxfix at h
  split at h
  · exact .inl (refuses_of_refuse h (by decide))
  · rename_i hr
    split at h
    · exact .inr (.inl ⟨by simpa using hr, eq_of_finishCommand h⟩)
    · exact .inr (.inr ⟨by simpa using hr, by omega, by omega, eq_of_finishCommand h⟩)

theorem execRxund_eq_next {s t : State} (h : execRxund s = .next t) :
    Refuses s t ∨ (s.receiving = false ∧ t = s.armUndefined.done .ok) := by
  unfold execRxund at h
  split at h
  · exact .inl (refuses_of_refuse h (by decide))
  · rename_i hr
    exact .inr ⟨by simpa using hr, eq_of_finishCommand h⟩

end Sys2Proof.Machine
end

