-- ==== Sys2Proof/Laws/Decode.lean ====
section
/-!
SUPPORT. The command word and its fields are each other's inverse, bit by bit; what decodes.
-/

namespace Sys2Proof

/-- The bits of a command word (30_encoding R95). -/
theorem getLsbD_wordOf (x : Fields) (i : Nat) : (wordOf x).getLsbD i =
    if i < 8 then x.z.getLsbD i else if i < 24 then x.w2.getLsbD (i - 8) else if i < 40 then x.w1.getLsbD (i - 24)
    else if i < 48 then x.f2.getLsbD (i - 40) else if i < 56 then x.f1.getLsbD (i - 48) else x.op.getLsbD (i - 56) := by
  change BitVec.getLsbD (w := 8 + 8 + 8 + 16 + 16 + 8) (x.op ++ x.f1 ++ x.f2 ++ x.w1 ++ x.w2 ++ x.z) i = _
  simp only [BitVec.getLsbD_append, Nat.sub_sub]
  by_cases h1 : i < 8
  · simp [h1]
  by_cases h2 : i < 24
  · have : i - 8 < 16 := by omega
    simp [h1, h2, this]
  by_cases h3 : i < 40
  · have h4 : i - 24 < 16 := by omega
    have h5 : ¬ i - 8 < 16 := by omega
    simp [h1, h2, h3, h4, h5]
  by_cases h6 : i < 48
  · have h5 : ¬ i - 8 < 16 := by omega
    have h7 : ¬ i - 24 < 16 := by omega
    have h8 : i - 40 < 8 := by omega
    simp [h1, h2, h3, h5, h6, h7, h8]
  by_cases h9 : i < 56
  · have h5 : ¬ i - 8 < 16 := by omega
    have h7 : ¬ i - 24 < 16 := by omega
    have h8 : ¬ i - 40 < 8 := by omega
    have h10 : i - 48 < 8 := by omega
    simp [h1, h2, h3, h5, h6, h7, h8, h9, h10]
  · have h5 : ¬ i - 8 < 16 := by omega
    have h7 : ¬ i - 24 < 16 := by omega
    have h8 : ¬ i - 40 < 8 := by omega
    have h10 : ¬ i - 48 < 8 := by omega
    simp [h1, h2, h3, h5, h6, h7, h8, h9, h10]

theorem fieldsOf_wordOf (x : Fields) : fieldsOf (wordOf x) = x := by
  obtain ⟨op, f1, f2, w1, w2, z⟩ := x
  simp only [fieldsOf, Fields.mk.injEq]
  refine ⟨?_, ?_, ?_, ?_, ?_, ?_⟩
  all_goals
    apply BitVec.eq_of_getLsbD_eq
    intro i hi
    rw [BitVec.getLsbD_extractLsb', getLsbD_wordOf]
    simp only [hi, decide_true, Bool.true_and]
    repeat' split
    all_goals first | omega | (congr 1; omega)

theorem wordOf_fieldsOf (w : BitVec 64) : wordOf (fieldsOf w) = w := by
  apply BitVec.eq_of_getLsbD_eq
  intro i hi
  rw [getLsbD_wordOf]
  simp only [fieldsOf, BitVec.getLsbD_extractLsb']
  repeat' split
  all_goals
    rw [decide_eq_true (by omega), Bool.true_and]
    congr 1
    omega

/-- The two halves of an operand put together are the operand. -/
theorem operand_append (v : Word) : operandHi v ++ operandLo v = v := by
  apply BitVec.eq_of_getLsbD_eq
  intro i hi
  rw [BitVec.getLsbD_append, operandHi, operandLo, BitVec.getLsbD_extractLsb', BitVec.getLsbD_extractLsb']
  split
  all_goals
    rw [decide_eq_true (by omega), Bool.true_and]
    congr 1
    omega

theorem operandHi_append (a b : Half) : operandHi (a ++ b) = a := by
  apply BitVec.eq_of_getLsbD_eq
  intro i hi
  rw [operandHi, BitVec.getLsbD_extractLsb', BitVec.getLsbD_append]
  simp [hi]

theorem operandLo_append (a b : Half) : operandLo (a ++ b) = b := by
  apply BitVec.eq_of_getLsbD_eq
  intro i hi
  rw [operandLo, BitVec.getLsbD_extractLsb', BitVec.getLsbD_append]
  simp [hi]

theorem wordOf_injective {x y : Fields} (h : wordOf x = wordOf y) : x = y := by
  rw [← fieldsOf_wordOf x, h, fieldsOf_wordOf]

/-- Masking a command word masks each of its fields. -/
theorem fieldsOf_and (w m : BitVec 64) :
    fieldsOf (w &&& m) =
      ⟨(fieldsOf w).op &&& (fieldsOf m).op, (fieldsOf w).f1 &&& (fieldsOf m).f1, (fieldsOf w).f2 &&& (fieldsOf m).f2,
        (fieldsOf w).w1 &&& (fieldsOf m).w1, (fieldsOf w).w2 &&& (fieldsOf m).w2, (fieldsOf w).z &&& (fieldsOf m).z⟩ := by
  simp only [fieldsOf, BitVec.extractLsb'_and]

/-- Takes a chain of tests apart one test at a time, as the opcode map is written. -/
theorem ite_eq_some_cases {α : Type} {p : Prop} [Decidable p] {a b : Option α} {x : α}
    (h : (if p then a else b) = some x) : (p ∧ a = some x) ∨ (¬p ∧ b = some x) := by
  by_cases hp : p
  · rw [if_pos hp] at h; exact .inl ⟨hp, h⟩
  · rw [if_neg hp] at h; exact .inr ⟨hp, h⟩

/-- What a command word that decodes satisfies (30_encoding R95 to R98). -/
theorem decodeCommand_eq_ok {w : BitVec 64} {i : Instr} (h : decodeCommand w = .ok i) :
    ∃ fmt, opcodeMap (fieldsOf w) = some (fmt, i) ∧ (fieldsOf w).z = 0#8 ∧ unusedZero fmt (fieldsOf w) = true ∧
      i.wellFormed = true := by
  unfold decodeCommand at h
  split at h
  · cases h
  · rename_i fmt j hj
    split at h
    · cases h
    · rename_i hz
      split at h
      · rename_i hw
        cases h
        rw [not_or] at hz
        exact ⟨fmt, hj, by simpa using hz.1, by simpa using hz.2, hw⟩
      · cases h

/-- A command word of the format's zeros and legal operands decodes. -/
theorem decodeCommand_wordOf {x : Fields} {fmt : Format} {i : Instr} (h : opcodeMap x = some (fmt, i))
    (hz : x.z = 0#8) (hu : unusedZero fmt x = true) (hw : i.wellFormed = true) :
    decodeCommand (wordOf x) = .ok i := by
  simp [decodeCommand, fieldsOf_wordOf, h, hz, hu, hw]

end Sys2Proof
end

