-- ==== Sys2Proof/Laws/Deliver.lean ====
section
/-!
SUPPORT. Everything taking the next event can do, and what a step then runs (00_scope R5, 43_receiver R195; log entry
1).
-/

namespace Sys2Proof.Machine

/-- The delivery taken is the first enabled one: those before it are transport items met while not receiving, and
stay. -/
theorem nextDelivery_eq_some {r : Bool} {ps rest : List PortWord} {p : PortWord}
    (h : nextDelivery r ps = some (p, rest)) :
    ∃ skipped tail, ps = skipped ++ p :: tail ∧ rest = skipped ++ tail ∧ (∀ q ∈ skipped, isTransport q = true) ∧
      (skipped = [] ∨ r = false) ∧ (r = true ∨ isTransport p = false) := by
  induction ps generalizing rest with
  | nil => cases h
  | cons q ps ih =>
    rw [nextDelivery] at h
    split at h
    · rename_i hq
      cases h
      exact ⟨[], ps, rfl, rfl, by simp, .inl rfl, by simpa using hq⟩
    · rename_i hq
      simp only [Bool.or_eq_true, Bool.not_eq_true', not_or, Bool.not_eq_true, Bool.not_eq_false] at hq
      split at h
      · cases h
      · rename_i p' rest' hn
        cases h
        obtain ⟨skipped, tail, rfl, rfl, hs, -, hp⟩ := ih hn
        exact ⟨q :: skipped, tail, rfl, rfl, by simpa [hq.2] using hs, .inr hq.1, hp⟩

/-- Nothing is enabled exactly when nothing but transport items is there, and those only while not receiving. -/
theorem nextDelivery_eq_none_iff {r : Bool} {ps : List PortWord} :
    nextDelivery r ps = none ↔ (∀ q ∈ ps, isTransport q = true) ∧ (ps = [] ∨ r = false) := by
  induction ps with
  | nil => simp [nextDelivery]
  | cons q ps ih =>
    rw [nextDelivery]
    split
    · rename_i hq
      simp only [reduceCtorEq, false_iff, not_and_or, not_or]
      rcases Bool.or_eq_true _ _ |>.mp hq with hr | hq
      · exact .inr ⟨by simp, by simp [hr]⟩
      · exact .inl fun h => by simp [h q (by simp)] at hq
    · rename_i hq
      simp only [Bool.or_eq_true, Bool.not_eq_true', not_or, Bool.not_eq_true, Bool.not_eq_false] at hq
      split
      · rename_i hn
        simpa [hq.1, hq.2] using ((ih.mp hn).1)
      · rename_i hn
        have : nextDelivery r ps ≠ none := by simp [hn]
        simp only [reduceCtorEq, false_iff, hq.1, or_true, and_true, List.mem_cons, forall_eq_or_imp, hq.2, true_and]
        intro h
        exact this (ih.mpr ⟨h, .inr hq.1⟩)

/-- Taking the next event changes nothing of the block's: only what the environment has yet to deliver. -/
theorem State.nextEvent_eq_some {s t : State} {p : PortWord} (h : s.nextEvent = some (p, t)) :
    (∃ rest, nextDelivery s.receiving s.inbox = some (p, rest) ∧ t = { s with inbox := rest }) ∨
      (∃ items rest, nextDelivery s.receiving s.inbox = none ∧ s.later = .again items ∧
        nextDelivery s.receiving items = some (p, rest) ∧ t = { s with inbox := s.inbox ++ rest }) ∨
      (∃ n, nextDelivery s.receiving s.inbox = none ∧ s.later = .free n ∧ p = Config.freeEvent n ∧
        (s.receiving = true ∨ isTransport p = false) ∧ t = { s with later := .free (n + 1) }) := by
  unfold State.nextEvent at h
  split at h
  · rename_i q rest hn
    cases h
    exact .inl ⟨rest, hn, rfl⟩
  · rename_i hn
    split at h
    · rename_i items hl
      split at h
      · rename_i q rest hi
        cases h
        exact .inr (.inl ⟨items, rest, hn, hl, hi, rfl⟩)
      · cases h
    · rename_i n hl
      split at h
      · rename_i he
        cases h
        exact .inr (.inr ⟨n, hn, hl, rfl, by simpa using he, rfl⟩)
      · cases h

/-- The state an event is run in differs from the state before in the environment's fields alone. -/
theorem State.nextEvent_block {s t : State} {p : PortWord} (h : s.nextEvent = some (p, t)) :
    t = { s with inbox := t.inbox, later := t.later } := by
  rcases State.nextEvent_eq_some h with ⟨_, -, rfl⟩ | ⟨_, _, -, -, -, rfl⟩ | ⟨_, -, -, -, -, rfl⟩ <;> rfl

/-- Taking a step apart: the event it takes, and what it runs. -/
theorem step_eq_next {s t : State} (h : step s = .next t) :
    ∃ p u, s.nextEvent = some (p, u) ∧
      ((∃ i, decode p = .ok i ∧ exec i u = .next t) ∨
        ((∃ e, decode p = .error e) ∧ t = u.done .illegalCmd)) := by
  unfold step runNext at h
  split at h
  · cases h
  · rename_i p u hn
    refine ⟨p, u, hn, ?_⟩
    unfold runWord at h
    split at h
    · rename_i i hi
      exact .inl ⟨i, hi, h⟩
    · rename_i e he
      exact .inr ⟨⟨e, he⟩, by simpa [refuse] using h.symm⟩

end Sys2Proof.Machine
end

