-- ==== Sys2Proof/Laws/Frames.lean ====
section
/-!
SUPPORT. What the receiver's procedures leave alone, and what the build commands leave in TXB.
-/

namespace Sys2Proof.Machine

/-- `t` differs from `s` in the receiver's side alone (20_memory R69). -/
def OnlyRx (s t : State) : Prop :=
  SameResults s t ∧ t.sta = s.sta ∧ SameConfig s t ∧ SameTx s t ∧ SameEnvironment s t

theorem OnlyRx.trans {s t u : State} (h : OnlyRx s t) (k : OnlyRx t u) : OnlyRx s u := by
  unfold OnlyRx SameResults SameConfig SameTx SameEnvironment at *
  simp_all

theorem State.rxFault_onlyRx (s : State) (c : Status) : OnlyRx s (s.rxFault c) := by
  unfold State.rxFault
  split <;> simp [OnlyRx, SameResults, SameConfig, SameTx, SameEnvironment]

theorem State.completeWith_onlyRx (s : State) (c : Status) : OnlyRx s (s.completeWith c) := by
  simp [State.completeWith, OnlyRx, SameResults, SameConfig, SameTx, SameEnvironment]

theorem State.storeByte_onlyRx (s : State) (d : Byte) : OnlyRx s (s.storeByte d) := by
  simp [State.storeByte, OnlyRx, SameResults, SameConfig, SameTx, SameEnvironment]

theorem State.finish_onlyRx {s t : State} (h : s.finish = .next t) : OnlyRx s t := by
  rcases State.finish_eq_next h with ⟨f, -, -, rfl⟩ | ⟨-, rfl⟩
  · exact s.completeWith_onlyRx _
  · exact s.rxFault_onlyRx _

theorem State.timeout_onlyRx {s t : State} (h : s.timeout = .next t) : OnlyRx s t := by
  rcases State.timeout_eq_next h with rfl | ⟨-, -, ⟨-, rfl⟩ | ⟨f, -, -, -, rfl⟩⟩
  · exact s.rxFault_onlyRx _
  · exact s.rxFault_onlyRx _
  · exact s.completeWith_onlyRx _

/-- The second part of `advance()` changes the lengths first, then may finish or fault. -/
theorem State.lengthKnown_onlyRx {s t : State} {p : Nat} (h : s.lengthKnown p = .next t) : OnlyRx s t := by
  unfold State.lengthKnown at h
  split at h
  · cases h
    exact OnlyRx.trans (by simp [OnlyRx, SameResults, SameConfig, SameTx, SameEnvironment]) (State.rxFault_onlyRx _ _)
  · split at h
    · cases h
      simp [OnlyRx, SameResults, SameConfig, SameTx, SameEnvironment]
    · simpa [OnlyRx, SameResults, SameConfig, SameTx, SameEnvironment] using State.finish_onlyRx h

theorem State.advanceRemainder_onlyRx {s t : State} (h : s.advanceRemainder = .next t) : OnlyRx s t := by
  unfold State.advanceRemainder at h
  split at h
  · exact State.finish_onlyRx h
  · obtain ⟨f, -, h⟩ := withRead_eq_next h
    obtain ⟨x, -, h⟩ := withRead_eq_next h
    exact State.lengthKnown_onlyRx h

theorem State.advance_onlyRx {s t : State} (h : s.advance = .next t) : OnlyRx s t := by
  unfold State.advance at h
  split at h
  · obtain ⟨f, -, h⟩ := withRead_eq_next h
    split at h
    · cases h
      simp [OnlyRx, SameResults, SameConfig, SameTx, SameEnvironment]
    · simpa [OnlyRx, SameResults, SameConfig, SameTx, SameEnvironment] using State.advanceRemainder_onlyRx h
  · exact State.advanceRemainder_onlyRx h

theorem takeByte_onlyRx {s t : State} {d : Byte} (h : takeByte d s = .next t) : OnlyRx s t := by
  obtain ⟨-, -, ⟨-, h⟩ | ⟨-, rfl⟩⟩ := takeByte_eq_next h
  · exact (s.storeByte_onlyRx d).trans (State.advance_onlyRx h)
  · exact s.storeByte_onlyRx d

theorem execTick_onlyRx {s t : State} (h : execTick s = .next t) : OnlyRx s t := by
  unfold execTick at h
  split at h
  · cases h
    simp [OnlyRx, SameResults, SameConfig, SameTx, SameEnvironment]
  · split at h
    · cases h
      simp [OnlyRx, SameResults, SameConfig, SameTx, SameEnvironment]
    · exact State.timeout_onlyRx h

/-- A transport condition answers a next state while receiving only (43_receiver R195). -/
theorem eq_next_of_enabled {s t : State} {k : Result}
    (h : (if s.receiving = false then (.refused .eventNotEnabled : Result) else k) = .next t) :
    s.receiving = true ∧ k = .next t := by
  split at h
  · cases h
  · rename_i hr
    exact ⟨by simpa using hr, h⟩

/-- A build leaves exactly its frame in TXB (41_frame_encode R140). -/
theorem State.holds_build (s : State) {frame : List Byte} (h : frame.length < 512) : (s.build frame).Holds .txb frame :=
  ⟨by simp [State.vlen, State.build, toNat_toLen h], Memory.holds_ofBytes frame⟩

/-- The response header in RTU mode: the slave address of the request (41_frame_encode R143). -/
theorem State.Holds.responseHeader_rtu {s : State} {bs : List Byte} (h : s.Holds .rxb bs) (hm : s.mode = .rtu)
    (hl : 0 < bs.length) (f : Byte) : s.responseHeader f = some [bs.getD 0 0#8, f] := by
  simp only [State.responseHeader, hm, h.byteAt_getD hl]

/-- The response header in TCP mode: transaction id and unit id of the request (41_frame_encode R143). -/
theorem State.Holds.responseHeader_tcp {s : State} {bs : List Byte} (h : s.Holds .rxb bs) (hm : s.mode = .tcp)
    (hl : 6 < bs.length) (f : Byte) :
    s.responseHeader f = some (mbapStart (bs.getD 0 0#8) (bs.getD 1 0#8) ++ [bs.getD 6 0#8, f]) := by
  simp only [State.responseHeader, hm, h.byteAt_getD (by omega : 0 < bs.length),
    h.byteAt_getD (by omega : 1 < bs.length), h.byteAt_getD hl]

/-- The buffers of the state after reset are canonical. -/
theorem reset_buffersWf : State.reset.BuffersWf := ⟨Memory.wf_nil, Memory.wf_nil⟩

end Sys2Proof.Machine
end

