-- ==== Sys2Proof/Laws/PerInstr.lean ====
section
/-!
SUPPORT. A statement per instruction: the encoding of an instruction is a word of the port the instruction arrives on.
-/

namespace Sys2Proof.Laws.PortOfEncoding

/-- The encoding of the instruction is a word of the instruction's own port (30_encoding R95, R101, R102, R83). -/
def Statement (i : Instr) : Prop := (encode i).port = i.port

theorem nop : Statement .nop := rfl

theorem cfgw (reg : Byte) (value : Word) : Statement (.cfgw reg value) := rfl

theorem cfgr (reg : Byte) : Statement (.cfgr reg) := rfl

theorem crc16 (b : Byte) (len : Half) : Statement (.crc16 b len) := rfl

theorem crcv (b : Byte) (len : Half) : Statement (.crcv b len) := rfl

theorem txclr : Statement .txclr := rfl

theorem pushb (byte : Byte) : Statement (.pushb byte) := rfl

theorem ldb (b : Byte) (idx : Half) : Statement (.ldb b idx) := rfl

theorem bldreq (slave function : Byte) (addr count : Half) : Statement (.bldreq slave function addr count) := rfl

theorem bldrsp (function : Byte) : Statement (.bldrsp function) := rfl

theorem bldexc (code : Byte) : Statement (.bldexc code) := rfl

theorem final : Statement .final := rfl

theorem predict (w : Byte) : Statement (.predict w) := rfl

theorem decreq (b : Byte) : Statement (.decreq b) := rfl

theorem decrsp : Statement .decrsp := rfl

theorem chkqty (w : Byte) : Statement (.chkqty w) := rfl

theorem unpack (w : Byte) (idx : Half) : Statement (.unpack w idx) := rfl

theorem rxfix (expected : Word) : Statement (.rxfix expected) := rfl

theorem rxund : Statement .rxund := rfl

theorem evByte (data : Byte) : Statement (.evByte data) := rfl

theorem evClosed : Statement .evClosed := rfl

theorem evFail : Statement .evFail := rfl

theorem evIntr : Statement .evIntr := rfl

theorem tick : Statement .tick := rfl

theorem reset : Statement .reset := rfl

theorem fc01 : Statement .fc01 := rfl

theorem fc02 : Statement .fc02 := rfl

theorem fc03 : Statement .fc03 := rfl

theorem fc04 : Statement .fc04 := rfl

theorem fc05 : Statement .fc05 := rfl

theorem fc06 : Statement .fc06 := rfl

theorem fc07 : Statement .fc07 := rfl

theorem fc0F : Statement .fc0F := rfl

theorem fc10 : Statement .fc10 := rfl

theorem fc11 : Statement .fc11 := rfl

theorem fcException (f : BitVec 7) : Statement (.fcException f) := rfl

end Sys2Proof.Laws.PortOfEncoding
end

