-- ==== Sys2Proof/Tests/Slice0.lean ====
section
/-!
SUPPORT. Tests: ill-formed terms, the words of every constructor written out from the encoding, one step on small states
with the results the spec's vectors give (95_test_vectors), and for every obligation with hypotheses a witness that
meets them.
-/

namespace Sys2Proof.Tests

open Sys2Proof.Machine

/-! ## Helpers -/

/-- What a step leaves, seen through `f`. -/
def after {α : Type} (r : Result) (f : State → α) : Option α :=
  match r with
  | .next s => some (f s)
  | .fault _ => none
  | .refused _ => none

/-- A state that is not receiving: mode, finalised flag, the two frames, receiver state and outcome; the time-outs of
95_test_vectors. -/
def idleState (m : Mode) (fin : Bool) (tx rx : List Byte) (st : RxState) (res : Status) : State :=
  { State.reset with
    mode := m
    tEof := 50#32
    tResp := 200#32
    txb := Memory.ofBytes tx
    txLen := toLen tx.length
    txFinal := fin
    rxb := Memory.ofBytes rx
    rxLen := toLen rx.length
    rxState := st
    rxResult := res
    rxTotal := toLen rx.length }

/-- A state that is receiving, with 50 ticks left. -/
def receivingState (m : Mode) (k : RxKind) (known : Bool) (st : RxState) (rx : List Byte) (need total : Nat) : State :=
  { State.reset with
    mode := m
    tEof := 50#32
    tResp := 200#32
    rxb := Memory.ofBytes rx
    rxLen := toLen rx.length
    rxState := st
    rxKind := k
    rxKnown := known
    rxNeed := toLen need
    rxTotal := toLen total
    rxTimer := 50#32
    rxReload := 200#32 }

/-- The receiver's state in the order 95_test_vectors writes it. -/
structure RxView where
  state : RxState
  result : Status
  len : Nat
  need : Nat
  total : Nat
  known : Bool
  deriving DecidableEq, Repr

def rxView (s : State) : RxView :=
  ⟨s.rxState, s.rxResult, s.rxLen.toNat, s.rxNeed.toNat, s.rxTotal.toNat, s.rxKnown⟩

/-- `sta` and `r[0]`. -/
def staR0 (s : State) : Status × Word := (s.sta, s.r0)

/-- The valid bytes of TXB. -/
def txBytes (s : State) : Option (List Byte) := s.bytesAt .txb 0 s.txLen.toNat

/-- The request of 95_test_vectors section 2.4, without and with its checksum. -/
def req : List Byte := [0x01#8, 0x03#8, 0x00#8, 0x00#8, 0x00#8, 0x02#8]

def reqCrc : List Byte := [0x01#8, 0x03#8, 0x00#8, 0x00#8, 0x00#8, 0x02#8, 0xC4#8, 0x0B#8]

/-- Its response. -/
def rsp : List Byte := [0x01#8, 0x03#8, 0x04#8, 0x12#8, 0x34#8, 0x56#8, 0x78#8, 0x81#8, 0x07#8]

/-- The exception response to it. -/
def excRsp : List Byte := [0x01#8, 0x83#8, 0x02#8, 0xC0#8, 0xF1#8]

/-- The same exchange in TCP mode (95_test_vectors program P2). -/
def reqTcp : List Byte :=
  [0x00#8, 0x01#8, 0x00#8, 0x00#8, 0x00#8, 0x06#8, 0x01#8, 0x03#8, 0x00#8, 0x00#8, 0x00#8, 0x02#8]

def rspTcp : List Byte :=
  [0x00#8, 0x01#8, 0x00#8, 0x00#8, 0x00#8, 0x07#8, 0x01#8, 0x03#8, 0x04#8, 0x12#8, 0x34#8, 0x56#8, 0x78#8]

/-- After the exchange of 95_test_vectors section 2.4. -/
def done : State := idleState .rtu true reqCrc rsp .complete .ok

/-- The same in TCP mode. -/
def doneTcp : State := idleState .tcp true reqTcp rspTcp .complete .ok

/-- After the exception response. -/
def doneExc : State := idleState .rtu true reqCrc excRsp .complete .remoteException

/-- The nine digits in TXB. -/
def digits : List Byte := [0x31#8, 0x32#8, 0x33#8, 0x34#8, 0x35#8, 0x36#8, 0x37#8, 0x38#8, 0x39#8]

/-- A frame of a request in TXB, nothing received. -/
def withTx (m : Mode) (tx : List Byte) : State := idleState m false tx [] .idle .noOutcome

/-- RXUND armed in RTU mode. -/
def armed : State := receivingState .rtu .undefinedLength false .awaitFunction [] 2 2

/-- The same, one byte from the function byte. -/
def atFunction : State := receivingState .rtu .undefinedLength false .awaitFunction [0x0A#8] 1 2

/-! ## Ill-formed terms (30_encoding R98, R92, 10_state R29) -/

theorem test_wf_crc16_buffer : (Instr.crc16 2#8 9#16).wellFormed = false := by decide

theorem test_wf_crcv_buffer : (Instr.crcv 2#8 9#16).wellFormed = false := by decide

theorem test_wf_ldb_buffer : (Instr.ldb 2#8 0#16).wellFormed = false := by decide

theorem test_wf_decreq_buffer : (Instr.decreq 255#8).wellFormed = false := by decide

theorem test_wf_predict_width : (Instr.predict 10#8).wellFormed = false := by decide

theorem test_wf_chkqty_width : (Instr.chkqty 10#8).wellFormed = false := by decide

theorem test_wf_unpack_width : (Instr.unpack 10#8 0#16).wellFormed = false := by decide

theorem test_wf_cfgw_register : (Instr.cfgw 4#8 1#32).wellFormed = false := by decide

theorem test_wf_cfgw_mode_value : (Instr.cfgw 0#8 2#32).wellFormed = false := by decide

theorem test_wf_cfgr_register :
    (Instr.cfgr 4#8).wellFormed = false ∧ (Instr.cfgr 7#8).wellFormed = false ∧ (Instr.cfgr 18#8).wellFormed = false := by
  decide

/-! ## Every constructor's word (30_encoding R95 to R97, R101, R102, R83, R88; 95_test_vectors) -/

theorem test_word_nop : decode (.command 0x0000000000000000#64) = .ok .nop := by decide

theorem test_word_cfgw : decode (.command 0x0102000000003200#64) = .ok (.cfgw 2#8 50#32) := by decide

theorem test_word_cfgr : decode (.command 0x020D000000000000#64) = .ok (.cfgr 13#8) := by decide

theorem test_word_crc16 : decode (.command 0x1001000009000000#64) = .ok (.crc16 1#8 9#16) := by decide

theorem test_word_crcv : decode (.command 0x1100000007000000#64) = .ok (.crcv 0#8 7#16) := by decide

theorem test_word_txclr : decode (.command 0x2000000000000000#64) = .ok .txclr := by decide

theorem test_word_pushb : decode (.command 0x21CD000000000000#64) = .ok (.pushb 0xCD#8) := by decide

theorem test_word_ldb : decode (.command 0x220100000B000000#64) = .ok (.ldb 1#8 11#16) := by decide

theorem test_word_bldreq :
    decode (.command 0x3001071234567800#64) = .ok (.bldreq 1#8 7#8 0x1234#16 0x5678#16) := by decide

theorem test_word_bldrsp : decode (.command 0x3100030000000000#64) = .ok (.bldrsp 3#8) := by decide

theorem test_word_bldexc : decode (.command 0x3202000000000000#64) = .ok (.bldexc 2#8) := by decide

theorem test_word_final : decode (.command 0x3300000000000000#64) = .ok .final := by decide

theorem test_word_predict : decode (.command 0x4003000000000000#64) = .ok (.predict 3#8) := by decide

theorem test_word_decreq : decode (.command 0x4101000000000000#64) = .ok (.decreq 1#8) := by decide

theorem test_word_decrsp : decode (.command 0x4200000000000000#64) = .ok .decrsp := by decide

theorem test_word_chkqty : decode (.command 0x4308000000000000#64) = .ok (.chkqty 8#8) := by decide

theorem test_word_unpack : decode (.command 0x440300FFFF000000#64) = .ok (.unpack 3#8 65535#16) := by decide

theorem test_word_rxfix : decode (.command 0x5000000000010100#64) = .ok (.rxfix 257#32) := by decide

theorem test_word_rxund : decode (.command 0x5100000000000000#64) = .ok .rxund := by decide

theorem test_word_events :
    decode (.transport 0x07F#10) = .ok (.evByte 0x7F#8) ∧ decode (.transport 0x100#10) = .ok .evClosed ∧
      decode (.transport 0x200#10) = .ok .evFail ∧ decode (.transport 0x300#10) = .ok .evIntr := by decide

theorem test_word_strobes : decode .tick = .ok .tick ∧ decode .reset = .ok .reset := by decide

theorem test_word_function_codes :
    decode (.functionByte 0x01#8) = .ok .fc01 ∧ decode (.functionByte 0x02#8) = .ok .fc02 ∧
      decode (.functionByte 0x03#8) = .ok .fc03 ∧ decode (.functionByte 0x04#8) = .ok .fc04 ∧
      decode (.functionByte 0x05#8) = .ok .fc05 ∧ decode (.functionByte 0x06#8) = .ok .fc06 ∧
      decode (.functionByte 0x07#8) = .ok .fc07 ∧ decode (.functionByte 0x0F#8) = .ok .fc0F ∧
      decode (.functionByte 0x10#8) = .ok .fc10 ∧ decode (.functionByte 0x11#8) = .ok .fc11 ∧
      decode (.functionByte 0x83#8) = .ok (.fcException 3#7) := by decide

/-- Malformed words of 95_test_vectors sections 2.2 and 2.6. -/
theorem test_word_malformed :
    decode (.command 0x0000000000000001#64) = .error .reservedField ∧
      decode (.command 0x0300000000000000#64) = .error .reservedOpcode ∧
      decode (.command 0xFF00000000000000#64) = .error .reservedOpcode ∧
      decode (.command 0x0100010000000100#64) = .error .reservedField ∧
      decode (.command 0x3103000000000000#64) = .error .reservedField ∧
      decode (.command 0x30011100000000FF#64) = .error .reservedField ∧
      decode (.command 0x0108000000000100#64) = .error .reservedOperand ∧
      decode (.command 0x0100000100000000#64) = .error .reservedOperand := by decide

/-! ## Code numbers (30_encoding R103, 10_state R34) -/

theorem test_status_codes :
    [Status.ok, .timeout, .transportClosed, .transportFailure, .invalidCrc, .invalidData, .unsupportedWidth,
      .remoteException, .undefinedLength, .illegalCmd, .busy, .sequence, .range, .noOutcome].map
        (fun c => c.code.toNat) = [0, 1, 2, 3, 4, 5, 6, 7, 8, 9, 10, 11, 12, 15] := by decide

theorem test_receiver_state_codes :
    [RxState.idle, .awaitFunction, .awaitRemainder, .complete, .faulted].map (fun c => c.code.toNat) =
      [0, 1, 2, 3, 4] := by decide

/-! ## One step each (95_test_vectors) -/

theorem test_nop : after (exec .nop { done with sta := .range }) staR0 = some (.ok, 0#32) := by decide

theorem test_cfgw_resp :
    after (exec (.cfgw 3#8 0xFFFFFFFF#32) State.reset) (fun t => (t.sta, t.tResp)) = some (.ok, 0xFFFFFFFF#32) := by
  decide

/-- Section 2.6: the malformed check comes before BUSY. -/
theorem test_cfgw_order :
    after (exec (.cfgw 0#8 2#32) armed) (fun t => t.sta) = some .illegalCmd ∧
      after (exec (.cfgw 0#8 0#32) armed) (fun t => t.sta) = some .busy := by decide

theorem test_cfgr_reset :
    after (exec (.cfgr 1#8) State.reset) staR0 = some (.ok, 5000#32) ∧
      after (exec (.cfgr 9#8) State.reset) staR0 = some (.ok, 15#32) := by decide

theorem test_cfgr_flags :
    after (exec (.cfgr 17#8) armed) staR0 = some (.ok, 1#32) ∧
      after (exec (.cfgr 17#8) { armed with rxKnown := true }) staR0 = some (.ok, 3#32) := by decide

theorem test_crc16 :
    after (exec (.crc16 0#8 9#16) (withTx .rtu digits)) staR0 = some (.ok, 0x374B#32) := by decide +kernel

theorem test_crc16_bounds :
    after (exec (.crc16 0#8 0#16) (withTx .rtu digits)) staR0 = some (.ok, 0xFFFF#32) ∧
      after (exec (.crc16 0#8 10#16) (withTx .rtu digits)) staR0 = some (.range, 0#32) := by decide

theorem test_crcv_good : after (exec (.crcv 0#8 8#16) done) staR0 = some (.ok, 8#32) := by decide +kernel

theorem test_crcv_bad :
    after (exec (.crcv 0#8 7#16) done) staR0 = some (.invalidCrc, 0#32) ∧
      after (exec (.crcv 0#8 1#16) done) staR0 = some (.range, 0#32) := by decide +kernel

theorem test_txclr :
    after (exec .txclr done) (fun t => (t.sta, t.txLen, t.txFinal, t.rxLen)) = some (.ok, 0#9, false, 9#9) := by decide

theorem test_pushb :
    after (exec (.pushb 0x02#8) (withTx .rtu [0x0A#8, 0x01#8])) (fun t => (t.sta, t.r0, txBytes t)) =
      some (.ok, 3#32, some [0x0A#8, 0x01#8, 0x02#8]) := by decide

/-- Section 2.2, capacity: the 255th byte in RTU mode is RANGE; a finalised frame takes none. -/
theorem test_pushb_refused :
    after (exec (.pushb 0#8) { withTx .rtu [] with txLen := 254#9 }) (fun t => t.sta) = some .range ∧
      after (exec (.pushb 0#8) done) (fun t => t.sta) = some .sequence := by decide

theorem test_ldb :
    after (exec (.ldb 0#8 7#16) done) staR0 = some (.ok, 0x0B#32) ∧
      after (exec (.ldb 0#8 8#16) done) staR0 = some (.range, 0#32) := by decide

theorem test_ldb_busy :
    after (exec (.ldb 1#8 0#16) armed) (fun t => t.sta) = some .busy ∧
      after (exec (.ldb 0#8 0#16) armed) (fun t => t.sta) = some .range := by decide

/-- Section 2.2: the transaction id wraps to 0 after 65535. -/
theorem test_bldreq_wrap :
    after (exec (.bldreq 1#8 3#8 0#16 2#16) { withTx .tcp [] with tid := 0xFFFF#16 })
        (fun t => (t.sta, t.r0, t.tid, txBytes t)) =
      some (.ok, 12#32, 0#16,
        some [0#8, 0#8, 0#8, 0#8, 0#8, 0#8, 0x01#8, 0x03#8, 0x00#8, 0x00#8, 0x00#8, 0x02#8]) := by decide

/-- Section 2.2: the bare form ignores address and count; an exception function is refused. -/
theorem test_bldreq_bare :
    after (exec (.bldreq 1#8 7#8 0x1234#16 0x5678#16) State.reset) (fun t => (t.sta, t.r0, txBytes t)) =
        some (.ok, 2#32, some [0x01#8, 0x07#8]) ∧
      after (exec (.bldreq 1#8 0x83#8 0#16 0#16) State.reset) staR0 = some (.invalidData, 0#32) := by decide

theorem test_bldrsp :
    after (exec (.bldrsp 3#8) doneTcp) (fun t => (t.sta, t.r0, t.tid, txBytes t)) =
      some (.ok, 8#32, 0#16, some [0x00#8, 0x01#8, 0#8, 0#8, 0#8, 0#8, 0x01#8, 0x03#8]) := by decide

/-- Program P3, step 6. -/
theorem test_bldexc :
    after (exec (.bldexc 2#8)
          (idleState .rtu false [] [0x0A#8, 0x01#8, 0x04#8, 0xA1#8, 0x00#8, 0x01#8, 0xAC#8, 0x63#8] .complete .ok))
        (fun t => (t.sta, t.r0, txBytes t)) = some (.ok, 3#32, some [0x0A#8, 0x81#8, 0x02#8]) := by decide

theorem test_final_rtu :
    after (exec .final (withTx .rtu [0x01#8, 0x03#8])) (fun t => (t.sta, t.r0, t.txFinal, txBytes t)) =
      some (.ok, 4#32, true, some [0x01#8, 0x03#8, 0x40#8, 0x21#8]) := by decide +kernel

theorem test_final_tcp :
    after (exec .final (withTx .tcp [0#8, 1#8, 0#8, 0#8, 0#8, 0#8, 1#8, 0x11#8]))
        (fun t => (t.sta, t.r0, t.txFinal, txBytes t)) =
      some (.ok, 8#32, true, some [0#8, 1#8, 0#8, 0#8, 0#8, 2#8, 1#8, 0x11#8]) := by decide

/-- Section 1.1: read coils with count 13. -/
theorem test_predict_bits :
    after (exec (.predict 3#8) (withTx .rtu [0x01#8, 0x01#8, 0x00#8, 0x13#8, 0x00#8, 0x0D#8]))
        (fun t => (t.sta, t.r0, t.r1)) = some (.ok, 7#32, 4#32) := by decide

/-- Section 2.3: not compared with the maximum. -/
theorem test_predict_wide :
    after (exec (.predict 9#8) (withTx .rtu [0x01#8, 0x03#8, 0x00#8, 0x00#8, 0xFF#8, 0xFF#8]))
        (fun t => (t.sta, t.r0, t.r1)) = some (.ok, 524285#32, 524282#32) := by decide

theorem test_decreq_tx :
    after (exec (.decreq 0#8) doneTcp) (fun t => [t.r0, t.r1, t.r2, t.r3, t.r4, t.r5, t.r6]) =
      some [1#32, 3#32, 0#32, 2#32, 1#32, 6#32, 0#32] := by decide

/-- Section 2.4: the request positions applied to a response. -/
theorem test_decreq_rx :
    after (exec (.decreq 1#8) done) (fun t => [t.r0, t.r1, t.r2, t.r3, t.r4, t.r5, t.r6]) =
      some [1#32, 3#32, 0x0412#32, 0x3456#32, 0#32, 0#32, 0#32] := by decide

theorem test_decrsp_exception :
    after (exec .decrsp doneExc) (fun t => [t.r0, t.r1, t.r2, t.r3, t.r4, t.r5, t.r6]) =
      some [1#32, 0x83#32, 1#32, 2#32, 0#32, 0#32, 7#32] := by decide

/-- Section 2.4, identity: against a request of slave 2. -/
theorem test_decrsp_identity :
    after (exec .decrsp
          (idleState .rtu false [0x02#8, 0x03#8, 0x00#8, 0x00#8, 0x00#8, 0x02#8] rsp .complete .ok))
        (fun t => (t.sta, t.r6)) = some (.ok, 6#32) := by decide

theorem test_chkqty :
    after (exec (.chkqty 3#8) done) staR0 = some (.ok, 2#32) ∧
      after (exec (.chkqty 5#8) done) staR0 = some (.invalidData, 0#32) ∧
      after (exec (.chkqty 6#8) done) staR0 = some (.unsupportedWidth, 0#32) := by decide

theorem test_chkqty_exception :
    after (exec (.chkqty 3#8) doneExc) staR0 = some (.remoteException, 2#32) := by decide

/-- Section 2.4, sign extension. -/
theorem test_unpack_sign :
    after (exec (.unpack 2#8 0#16)
        (idleState .rtu true reqCrc [0x01#8, 0x04#8, 0x04#8, 0xFF#8, 0x85#8, 0x80#8, 0x00#8, 0xBB#8, 0xB9#8] .complete .ok))
      staR0 = some (.ok, 0xFFFFFF85#32) := by decide

theorem test_unpack_words :
    after (exec (.unpack 5#8 0#16) done) staR0 = some (.ok, 0x12345678#32) ∧
      after (exec (.unpack 3#8 2#16) done) staR0 = some (.range, 0#32) := by decide

theorem test_rxfix_largest :
    after (exec (.rxfix 256#32) done) (fun t => (t.sta, rxView t, t.rxTimer)) =
      some (.ok, ⟨.awaitRemainder, .noOutcome, 0, 256, 256, true⟩, 200#32) := by decide

theorem test_rxfix_too_large :
    after (exec (.rxfix 257#32) done) (fun t => (t.sta, rxView t)) =
      some (.invalidData, ⟨.faulted, .invalidData, 0, 0, 0, false⟩) := by decide

theorem test_rxund :
    after (exec .rxund doneTcp) (fun t => (t.sta, rxView t, t.rxTimer, t.rxKind)) =
      some (.ok, ⟨.awaitFunction, .noOutcome, 0, 8, 8, false⟩, 5000#32, .undefinedLength) := by decide

/-- Section 2.5: the last byte in TCP mode. -/
theorem test_ev_byte_last :
    after (exec (.evByte 0x78#8) (receivingState .tcp .fixed true .awaitRemainder (rspTcp.take 12) 1 13)) rxView =
      some ⟨.complete, .ok, 13, 0, 13, true⟩ := by decide

/-- Section 2.5: a bad checksum discards the bytes. -/
theorem test_ev_byte_bad_crc :
    after (exec (.evByte 0x06#8) (receivingState .rtu .fixed true .awaitRemainder (rsp.take 8) 1 9)) rxView =
      some ⟨.faulted, .invalidCrc, 0, 0, 9, true⟩ := by decide +kernel

/-- Section 2.5: RXFIX 9, 01 03, EV.CLOSED keeps the two bytes. -/
theorem test_ev_closed :
    after (exec .evClosed (receivingState .rtu .fixed true .awaitRemainder [0x01#8, 0x03#8] 7 9)) rxView =
      some ⟨.faulted, .transportClosed, 2, 7, 9, true⟩ := by decide

theorem test_ev_fail :
    after (exec .evFail (receivingState .rtu .fixed true .awaitRemainder [0x01#8, 0x03#8] 7 9)) rxView =
      some ⟨.faulted, .transportFailure, 2, 7, 9, true⟩ := by decide

/-- Program P4, step 8. -/
theorem test_ev_intr :
    after (exec .evIntr (receivingState .rtu .fixed true .awaitRemainder [] 9 9)) (fun t => (rxView t, t.rxTimer)) =
      some (⟨.awaitRemainder, .noOutcome, 0, 9, 9, true⟩, 200#32) := by decide

/-- Program P4, steps 10 to 13: the last tick finds the exception response. -/
theorem test_tick_shortcut :
    after (exec .tick { receivingState .rtu .fixed true .awaitRemainder excRsp 4 9 with rxTimer := 1#32 }) rxView =
      some ⟨.complete, .remoteException, 5, 0, 5, true⟩ := by decide +kernel

/-- Section 2.5: bit 7 of the function byte clear, so no shortcut; and a wait of 0 behaves as 1. -/
theorem test_tick_timeout :
    after (exec .tick
        { receivingState .tcp .fixed true .awaitRemainder [0#8, 1#8, 0#8, 0#8, 0#8, 3#8, 1#8, 3#8, 2#8] 4 13 with
          rxTimer := 0#32 })
      rxView = some ⟨.faulted, .timeout, 9, 4, 13, true⟩ := by decide

theorem test_reset :
    after (exec .reset { done with inbox := [.tick], later := .free 3 })
        (fun t => (t.sta, rxView t, t.txLen, t.inbox, t.later)) =
      some (.ok, ⟨.idle, .noOutcome, 0, 0, 0, false⟩, 0#9, [.tick], .free 3) := by decide

/-- 30_encoding R90: the function byte of each class, in RTU mode: `rx_len`, `rx_need`, `rx_total`, `rx_known`. -/
theorem test_fc_address_forms :
    ∀ i ∈ [Instr.fc01, .fc02, .fc03, .fc04, .fc05, .fc06],
      after (exec i atFunction) rxView = some ⟨.awaitRemainder, .noOutcome, 2, 4, 6, false⟩ := by decide

theorem test_fc_multi_writes :
    ∀ i ∈ [Instr.fc0F, .fc10],
      after (exec i atFunction) rxView = some ⟨.awaitRemainder, .noOutcome, 2, 5, 7, false⟩ := by decide

theorem test_fc_one_more :
    ∀ i ∈ [Instr.fc11, .fcException 1#7],
      after (exec i atFunction) rxView = some ⟨.awaitRemainder, .noOutcome, 2, 1, 3, false⟩ := by decide

theorem test_fc07 : after (exec .fc07 atFunction) rxView = some ⟨.awaitRemainder, .noOutcome, 2, 2, 4, true⟩ := by decide

/-- 30_encoding R98: the step answers a malformed word with ILLEGAL_CMD. -/
theorem test_step_malformed :
    after (step { done with inbox := [.command 0x30011100000000FF#64, .tick] }) (fun t => (staR0 t, t.inbox)) =
      some ((.illegalCmd, 0#32), [.tick]) := by decide

/-- 43_receiver R195: while not receiving a transport item waits and the command behind it runs. -/
theorem test_step_skips_transport :
    after (step { done with inbox := [.transport 0x001#10, .command 0x4403000000000000#64] })
      (fun t => (staR0 t, t.inbox)) = some ((.ok, 0x1234#32), [.transport 0x001#10]) := by decide

/-- 70_reset_and_hazards R297: with the inbox spent, the interrupt that comes again and again re-arms the wait, and the
environment is as it was. -/
theorem test_step_again :
    after (step { armed with later := .again [.transport 0x300#10] }) (fun t => (t.rxTimer, t.inbox, t.later)) =
      some (200#32, [], .again [.transport 0x300#10]) := by decide

/-- The table's bits placed, then run. -/
theorem test_fetch_word :
    after (step (State.reset.withFetchWord 64 0x3001030000000200)) staR0 = some (.ok, 6#32) ∧
      after (step (State.reset.withFetchWord 16 0x055)) rxView =
        some ⟨.awaitFunction, .noOutcome, 1, 1, 2, false⟩ := by decide

/-! ## Witnesses: a concrete state and operands meet the hypotheses of each clause together -/

theorem holds_tx (m : Mode) (fin : Bool) (tx rx : List Byte) (st : RxState) (res : Status) (h : tx.length < 512) :
    (idleState m fin tx rx st res).Holds .txb tx :=
  ⟨toNat_toLen h, Memory.holds_ofBytes tx⟩

theorem holds_rx (m : Mode) (fin : Bool) (tx rx : List Byte) (st : RxState) (res : Status) (h : rx.length < 512) :
    (idleState m fin tx rx st res).Holds .rxb rx :=
  ⟨toNat_toLen h, Memory.holds_ofBytes rx⟩

theorem holds_receiving (m : Mode) (k : RxKind) (known : Bool) (st : RxState) (rx : List Byte) (need total : Nat)
    (h : rx.length < 512) : (receivingState m k known st rx need total).Holds .rxb rx :=
  ⟨toNat_toLen h, Memory.holds_ofBytes rx⟩

theorem selects_tx : Selects 0#8 .txb := .inl ⟨rfl, rfl⟩

theorem selects_rx : Selects 1#8 .rxb := .inr ⟨rfl, rfl⟩

theorem not_busy_tx (s : State) : ¬s.RxBusy .txb := fun h => by cases h.1

theorem not_busy_rx {s : State} (h : s.receiving = false) : ¬s.RxBusy .rxb := fun k => by
  have := k.2
  simp [h] at this

theorem witness_DecodeOfEncodeIsIdentity :
    (Instr.unpack 9#8 0xFFFF#16).wellFormed = true ∧ (Instr.cfgw 0#8 1#32).wellFormed = true := by decide

theorem witness_EncodeOfDecodeIsIdentity : decode (.command 0x4409000001000000#64) = .ok (.unpack 9#8 1#16) := by decide

theorem witness_MalformedWordIsIllegalCommand :
    { armed with inbox := [.command 0x0100000000000100#64] }.nextEvent = some (.command 0x0100000000000100#64, armed) ∧
      LegalWord 0x0100000000000100#64 ∧ ¬LegalWord 0x0100000000000200#64 ∧ ¬LegalWord 0x0300000000000000#64 := by
  refine ⟨rfl, ⟨⟨0xFF00FF00000000FF#64, 0x0100000000000000#64, .configWrite⟩, by decide, by decide, ?_⟩, ?_, ?_⟩
  · exact ⟨by decide, by decide⟩
  · rintro ⟨row, hm, he, hr⟩
    have h : ∀ row ∈ commandTable, 0x0100000000000200#64 &&& row.mask = row.pattern → row.rule = .configWrite := by
      decide
    rw [h row hm he] at hr
    exact absurd (hr.2 (by decide)) (by decide)
  · rintro ⟨row, hm, he, -⟩
    have h : ∀ row ∈ commandTable, 0x0300000000000000#64 &&& row.mask ≠ row.pattern := by decide
    exact h row hm he

theorem witness_ReservedOperandIsIllegalCommand : (Instr.predict 10#8).wellFormed = false := by decide

/-- Not receiving, with a transport item waiting and two items that come again and again. -/
def doneAgain : State :=
  { done with inbox := [.transport 0x001#10], later := .again [.transport 0x002#10, .tick] }

/-- The four clauses: an event of the inbox, the same as the inbox's, one that comes again, one of the free order. -/
theorem witness_StepRunsDecodedInstruction :
    ({ done with inbox := [.transport 0x001#10, .tick] }.nextEvent =
        some (.tick, { done with inbox := [.transport 0x001#10] }) ∧
      decode .tick = .ok .tick ∧ Instr.tick.wellFormed = true) ∧
    nextDelivery done.receiving [.transport 0x001#10, .tick] = some (.tick, [.transport 0x001#10]) ∧
    (nextDelivery doneAgain.receiving doneAgain.inbox = none ∧
      doneAgain.later = .again [.transport 0x002#10, .tick] ∧
      nextDelivery doneAgain.receiving [.transport 0x002#10, .tick] = some (.tick, [.transport 0x002#10])) ∧
    nextDelivery armed.receiving armed.inbox = none ∧ armed.receiving = true := by decide

/-- The third clause with transport items alone, and with nothing at all. -/
theorem witness_TransportItemsWaitForAReceive :
    (Instr.fc03.port = .transport ∧ done.receiving = false) ∧
      ((∀ q ∈ [PortWord.transport 1#10, .functionByte 3#8], q.port = .transport) ∧ PortWord.tick.port ≠ .transport) ∧
      (∀ q ∈ doneAgain.inbox ++ [.transport 0x100#10], q.port = .transport) ∧
      armed.later = .again [] ∧ armed.inbox ++ [] = [] := by decide

theorem witness_CrcVerifiesAndDetectsBitFlips :
    (withTx .rtu reqCrc).Holds .txb (req ++ [hiByte (crc16 req), loByte (crc16 req)]) ∧
      (5 < req.length ∧ 7 < 8 ∧
        (withTx .rtu [0x01#8, 0x03#8, 0x00#8, 0x00#8, 0x00#8, 0x82#8, 0xC4#8, 0x0B#8]).Holds .txb
          (req.set 5 (req.getD 5 0#8 ^^^ BitVec.twoPow 8 7) ++ [hiByte (crc16 req), loByte (crc16 req)])) := by
  have h1 : req ++ [hiByte (crc16 req), loByte (crc16 req)] = reqCrc := by decide +kernel
  have h2 : req.set 5 (req.getD 5 0#8 ^^^ BitVec.twoPow 8 7) ++ [hiByte (crc16 req), loByte (crc16 req)] =
      [0x01#8, 0x03#8, 0x00#8, 0x00#8, 0x00#8, 0x82#8, 0xC4#8, 0x0B#8] := by decide +kernel
  rw [h1, h2]
  exact ⟨holds_tx _ _ _ _ _ _ (by decide), by decide, by decide, holds_tx _ _ _ _ _ _ (by decide)⟩

theorem witness_Crc16Command :
    (Selects 0#8 .txb ∧ ¬armed.RxBusy .txb ∧ (withTx .rtu digits).Holds .txb digits ∧ (9#16).toNat ≤ digits.length) ∧
      (Selects 1#8 .rxb ∧ ¬done.RxBusy .rxb ∧ done.Holds .rxb rsp ∧ (0#16).toNat ≤ rsp.length) ∧
      1 < (2#8).toNat ∧ armed.receiving = true ∧ (withTx .rtu digits).vlen .txb < (10#16).toNat :=
  ⟨⟨selects_tx, not_busy_tx _, holds_tx _ _ _ _ _ _ (by decide), by decide⟩,
    ⟨selects_rx, not_busy_rx (by decide), holds_rx _ _ _ _ _ _ (by decide), by decide⟩, by decide, by decide, by decide⟩

theorem witness_CrcvCommand :
    (Selects 0#8 .txb ∧ ¬done.RxBusy .txb ∧ done.Holds .txb reqCrc ∧ 2 ≤ (8#16).toNat ∧ (8#16).toNat ≤ reqCrc.length) ∧
      EndsInCrc (reqCrc.take 8) ∧ ¬EndsInCrc (reqCrc.take 2) ∧ 1 < (2#8).toNat ∧ armed.receiving = true ∧
      (1#16).toNat < 2 ∧ done.vlen .txb < (9#16).toNat :=
  ⟨⟨selects_tx, not_busy_tx _, holds_tx _ _ _ _ _ _ (by decide), by decide, by decide⟩,
    ⟨by decide, by decide +kernel⟩, fun h => absurd h.2 (by decide +kernel), by decide, by decide, by decide, by decide⟩

theorem witness_CfgwCommand :
    done.receiving = false ∧ 3 < (4#8).toNat ∧ 1 < (2#32).toNat ∧
      ((0#8).toNat ≤ 3 ∧ (1#32).toNat ≤ 1 ∧ armed.receiving = true) ∧ ((3#8).toNat ≤ 3 ∧ 3#8 ≠ 0#8) := by decide

theorem witness_CfgrCommand :
    (4 ≤ (4#8).toNat ∧ (4#8).toNat ≤ 7) ∧ (4 ≤ (7#8).toNat ∧ (7#8).toNat ≤ 7) ∧ 18 ≤ (18#8).toNat := by decide

theorem witness_PushbCommand :
    ((withTx .tcp (List.replicate 259 0#8)).txFinal = false ∧
        (withTx .tcp (List.replicate 259 0#8)).Holds .txb (List.replicate 259 0#8) ∧
        (List.replicate 259 0#8).length <
          (withTx .tcp (List.replicate 259 0#8)).maxAdu - (withTx .tcp (List.replicate 259 0#8)).ck) ∧
      done.txFinal = true ∧
      ({ withTx .rtu [] with txLen := 254#9 }.txFinal = false ∧
        State.maxAdu { withTx .rtu [] with txLen := 254#9 } - State.ck { withTx .rtu [] with txLen := 254#9 } ≤
          (254#9).toNat) :=
  ⟨⟨rfl, holds_tx _ _ _ _ _ _ (by rw [List.length_replicate]; decide),
      by rw [List.length_replicate]; decide⟩, rfl, by decide⟩

theorem witness_LdbCommand :
    (Selects 0#8 .txb ∧ ¬done.RxBusy .txb ∧ done.Holds .txb reqCrc ∧ (7#16).toNat < reqCrc.length) ∧
      (Selects 1#8 .rxb ∧ ¬done.RxBusy .rxb ∧ done.Holds .rxb rsp ∧ (8#16).toNat < rsp.length) ∧
      1 < (2#8).toNat ∧ armed.receiving = true ∧ done.vlen .txb ≤ (8#16).toNat ∧ armed.vlen .txb ≤ (0#16).toNat :=
  ⟨⟨selects_tx, not_busy_tx _, holds_tx _ _ _ _ _ _ (by decide), by decide⟩,
    ⟨selects_rx, not_busy_rx (by decide), holds_rx _ _ _ _ _ _ (by decide), by decide⟩, by decide, by decide, by decide,
    by decide⟩

theorem witness_BldreqInRtuMode :
    armed.mode = .rtu ∧ PlainRequest 0x06#8 ∧ MultiRequest 0x10#8 ∧ BareRequest 0x11#8 := by
  unfold PlainRequest MultiRequest BareRequest
  decide

theorem witness_BldreqInTcpMode :
    doneTcp.mode = .tcp ∧ PlainRequest 0x01#8 ∧ MultiRequest 0x0F#8 ∧ BareRequest 0x07#8 := by
  unfold PlainRequest MultiRequest BareRequest
  decide

theorem witness_BldreqRefusesOtherFunctions :
    (¬PlainRequest 0x2B#8 ∧ ¬MultiRequest 0x2B#8 ∧ ¬BareRequest 0x2B#8) ∧
      (¬PlainRequest 0x83#8 ∧ ¬MultiRequest 0x83#8 ∧ ¬BareRequest 0x83#8) := by
  unfold PlainRequest MultiRequest BareRequest
  decide

theorem witness_BldrspCommand :
    (done.rxState = .complete ∧ done.Holds .rxb rsp ∧ done.h + 1 ≤ rsp.length ∧ done.mode = .rtu) ∧
      (doneTcp.rxState = .complete ∧ doneTcp.Holds .rxb rspTcp ∧ doneTcp.h + 1 ≤ rspTcp.length ∧ doneTcp.mode = .tcp) ∧
      armed.receiving = true ∧ ((withTx .rtu req).receiving = false ∧ (withTx .rtu req).rxState ≠ .complete) :=
  ⟨⟨rfl, holds_rx _ _ _ _ _ _ (by decide), by decide, rfl⟩, ⟨rfl, holds_rx _ _ _ _ _ _ (by decide), by decide, rfl⟩,
    rfl, by decide⟩

theorem witness_BldexcCommand :
    (doneExc.rxState = .complete ∧ doneExc.Holds .rxb excRsp ∧ doneExc.h + 1 ≤ excRsp.length ∧ doneExc.mode = .rtu) ∧
      (doneTcp.rxState = .complete ∧ doneTcp.Holds .rxb rspTcp ∧ doneTcp.h + 1 ≤ rspTcp.length ∧ doneTcp.mode = .tcp) ∧
      armed.receiving = true ∧ ((withTx .rtu req).receiving = false ∧ (withTx .rtu req).rxState ≠ .complete) :=
  ⟨⟨rfl, holds_rx _ _ _ _ _ _ (by decide), by decide, rfl⟩, ⟨rfl, holds_rx _ _ _ _ _ _ (by decide), by decide, rfl⟩,
    rfl, by decide⟩

/-- The shortest and the longest frame FINAL takes in each mode. -/
theorem witness_FinalCommand :
    ((withTx .rtu [1#8, 3#8]).mode = .rtu ∧ (withTx .rtu [1#8, 3#8]).txFinal = false ∧
        (withTx .rtu [1#8, 3#8]).Holds .txb [1#8, 3#8] ∧ 2 ≤ [1#8, 3#8].length ∧ [1#8, 3#8].length + 2 ≤ 256) ∧
      ((withTx .rtu (List.replicate 254 0#8)).Holds .txb (List.replicate 254 0#8) ∧
        (List.replicate 254 0#8).length + 2 ≤ 256) ∧
      ((withTx .tcp reqTcp).mode = .tcp ∧ (withTx .tcp reqTcp).txFinal = false ∧ (withTx .tcp reqTcp).Holds .txb reqTcp ∧
        8 ≤ reqTcp.length ∧ reqTcp.length ≤ 260) ∧
      ((withTx .tcp (List.replicate 260 0#8)).Holds .txb (List.replicate 260 0#8) ∧
        (List.replicate 260 0#8).length ≤ 260) ∧
      (done.txFinal = true ∧ (withTx .rtu [1#8]).txLen.toNat < (withTx .rtu [1#8]).h + 1) ∧
      ({ withTx .rtu [] with txLen := 255#9 }.txFinal = false ∧
        State.h { withTx .rtu [] with txLen := 255#9 } + 1 ≤ (255#9).toNat ∧
        State.maxAdu { withTx .rtu [] with txLen := 255#9 } <
          (255#9).toNat + State.ck { withTx .rtu [] with txLen := 255#9 }) :=
  ⟨⟨rfl, rfl, holds_tx _ _ _ _ _ _ (by decide), by decide, by decide⟩,
    ⟨holds_tx _ _ _ _ _ _ (by rw [List.length_replicate]; decide), by rw [List.length_replicate]⟩,
    ⟨rfl, rfl, holds_tx _ _ _ _ _ _ (by decide), by decide, by decide⟩,
    ⟨holds_tx _ _ _ _ _ _ (by rw [List.length_replicate]; decide), by rw [List.length_replicate]⟩, ⟨rfl, by decide⟩, by decide⟩

theorem witness_BuiltRequestIsWireFrame :
    State.reset.mode = .rtu ∧ doneTcp.mode = .tcp ∧ PlainRequest 0x03#8 := by
  unfold PlainRequest
  decide

theorem witness_FinalisedFrameIsValid :
    ((withTx .rtu req).BuffersFilled ∧ ∃ t, exec .final (withTx .rtu req) = .next t ∧ t.sta = .ok) ∧
      ((withTx .tcp reqTcp).BuffersFilled ∧ ∃ t, exec .final (withTx .tcp reqTcp) = .next t ∧ t.sta = .ok) :=
  ⟨⟨⟨(Memory.holds_ofBytes req).filled, Memory.holds_nil.filled⟩, _, rfl, rfl⟩,
    ⟨⟨(Memory.holds_ofBytes reqTcp).filled, Memory.holds_nil.filled⟩, _, rfl, rfl⟩⟩

/-- The longest multi-write request of RTU mode. -/
theorem witness_BuiltRequestRoundTrips :
    PlainRequest 0x05#8 ∧ BareRequest 0x07#8 ∧ MultiRequest 0x10#8 ∧
      State.reset.h + 6 + (List.replicate 247 0#8).length + State.reset.ck ≤ State.reset.maxAdu := by
  rw [List.length_replicate]
  unfold PlainRequest BareRequest MultiRequest
  decide

/-- Requests of each class of R161: two read forms, a write form, read exception status. -/
def coils : List Byte := [0x01#8, 0x01#8, 0x00#8, 0x13#8, 0xFF#8, 0xFF#8]

theorem witness_PredictCommand_reads :
    ((0#8).toNat ≤ 9 ∧ (withTx .rtu coils).Holds .txb coils ∧ 65535 = (field16 coils ((withTx .rtu coils).h + 3)).toNat ∧
        coils.getD (withTx .rtu coils).h 0#8 ∈ [0x01#8, 0x02#8] ∧
        (withTx .rtu coils).h + 5 ≤ (withTx .rtu coils).bodyOf coils .txb ∧ 8194 = 2 + (65535 + 7) / 8) ∧
      ((9#8).toNat ≤ 9 ∧ done.Holds .txb reqCrc ∧ 2 = (field16 reqCrc (done.h + 3)).toNat ∧
        reqCrc.getD done.h 0#8 ∈ [0x03#8, 0x04#8] ∧ done.h + 5 ≤ done.bodyOf reqCrc .txb ∧
        18 = 2 + bytesPerValue 9#8 * 2) :=
  ⟨⟨by decide, holds_tx _ _ _ _ _ _ (by decide), by decide, by decide, by decide, by decide⟩,
    by decide, holds_tx _ _ _ _ _ _ (by decide), by decide, by decide, by decide, by decide⟩

theorem witness_PredictCommand_writes :
    ((3#8).toNat ≤ 9 ∧ (withTx .rtu [1#8, 0x10#8]).Holds .txb [1#8, 0x10#8] ∧
        [1#8, 0x10#8].getD (withTx .rtu [1#8, 0x10#8]).h 0#8 ∈ [0x05#8, 0x06#8, 0x0F#8, 0x10#8] ∧
        (withTx .rtu [1#8, 0x10#8]).h + 1 ≤ (withTx .rtu [1#8, 0x10#8]).bodyOf [1#8, 0x10#8] .txb) ∧
      ((3#8).toNat ≤ 9 ∧ (withTx .rtu [1#8, 7#8]).Holds .txb [1#8, 7#8] ∧
        [1#8, 7#8].getD (withTx .rtu [1#8, 7#8]).h 0#8 = 0x07#8 ∧
        (withTx .rtu [1#8, 7#8]).h + 1 ≤ (withTx .rtu [1#8, 7#8]).bodyOf [1#8, 7#8] .txb) :=
  ⟨⟨by decide, holds_tx _ _ _ _ _ _ (by decide), by decide, by decide⟩,
    by decide, holds_tx _ _ _ _ _ _ (by decide), by decide, by decide⟩

theorem witness_PredictCommand_refused :
    9 < (10#8).toNat ∧
      ((9#8).toNat ≤ 9 ∧ (withTx .rtu [1#8]).bodyLen .txb < (withTx .rtu [1#8]).h + 1) ∧
      ((withTx .rtu [1#8, 0x11#8]).Holds .txb [1#8, 0x11#8] ∧
        (withTx .rtu [1#8, 0x11#8]).h + 1 ≤ (withTx .rtu [1#8, 0x11#8]).bodyOf [1#8, 0x11#8] .txb ∧
        [1#8, 0x11#8].getD (withTx .rtu [1#8, 0x11#8]).h 0#8 = 0x11#8) ∧
      ((withTx .rtu [1#8, 0x2B#8]).Holds .txb [1#8, 0x2B#8] ∧
        (withTx .rtu [1#8, 0x2B#8]).h + 1 ≤ (withTx .rtu [1#8, 0x2B#8]).bodyOf [1#8, 0x2B#8] .txb ∧
        ¬PlainRequest 0x2B#8 ∧ ¬MultiRequest 0x2B#8 ∧ ¬BareRequest 0x2B#8) ∧
      ((withTx .rtu (coils.take 5)).Holds .txb (coils.take 5) ∧
        (withTx .rtu (coils.take 5)).h + 1 ≤ (withTx .rtu (coils.take 5)).bodyOf (coils.take 5) .txb ∧
        (coils.take 5).getD (withTx .rtu (coils.take 5)).h 0#8 ∈ [0x01#8, 0x02#8, 0x03#8, 0x04#8] ∧
        (withTx .rtu (coils.take 5)).bodyOf (coils.take 5) .txb < (withTx .rtu (coils.take 5)).h + 5) := by
  refine ⟨by decide, by decide, ⟨holds_tx _ _ _ _ _ _ (by decide), by decide, by decide⟩,
    ⟨holds_tx _ _ _ _ _ _ (by decide), by decide, ?_⟩, holds_tx _ _ _ _ _ _ (by decide), by decide, by decide, by decide⟩
  unfold PlainRequest MultiRequest BareRequest
  decide

/-- A multi-write request up to its byte count. -/
def multi : List Byte := [0x01#8, 0x0F#8, 0x00#8, 0x00#8, 0x00#8, 0x01#8, 0x01#8]

theorem witness_DecreqCommand_forms :
    (Selects 0#8 .txb ∧ ¬done.RxBusy .txb ∧ done.Holds .txb reqCrc ∧ PlainRequest (reqCrc.getD done.h 0#8) ∧
        done.h + 5 ≤ done.bodyOf reqCrc .txb) ∧
      (Selects 1#8 .rxb ∧ ¬doneTcp.RxBusy .rxb ∧ doneTcp.rxState = .complete ∧ doneTcp.Holds .rxb rspTcp ∧
        PlainRequest (rspTcp.getD doneTcp.h 0#8) ∧ doneTcp.h + 5 ≤ doneTcp.bodyOf rspTcp .rxb) ∧
      (Selects 0#8 .txb ∧ ¬(withTx .rtu multi).RxBusy .txb ∧ (withTx .rtu multi).Holds .txb multi ∧
        MultiRequest (multi.getD (withTx .rtu multi).h 0#8) ∧
        (withTx .rtu multi).h + 6 ≤ (withTx .rtu multi).bodyOf multi .txb) ∧
      (Selects 0#8 .txb ∧ ¬(withTx .rtu [1#8, 0x11#8]).RxBusy .txb ∧
        (withTx .rtu [1#8, 0x11#8]).Holds .txb [1#8, 0x11#8] ∧
        ¬PlainRequest ([1#8, 0x11#8].getD (withTx .rtu [1#8, 0x11#8]).h 0#8) ∧
        ¬MultiRequest ([1#8, 0x11#8].getD (withTx .rtu [1#8, 0x11#8]).h 0#8) ∧
        (withTx .rtu [1#8, 0x11#8]).h + 1 ≤ (withTx .rtu [1#8, 0x11#8]).bodyOf [1#8, 0x11#8] .txb) := by
  refine ⟨⟨selects_tx, not_busy_tx _, holds_tx _ _ _ _ _ _ (by decide), ?_, by decide⟩,
    ⟨selects_rx, not_busy_rx (by decide), rfl, holds_rx _ _ _ _ _ _ (by decide), ?_, by decide⟩,
    ⟨selects_tx, not_busy_tx _, holds_tx _ _ _ _ _ _ (by decide), ?_, by decide⟩,
    selects_tx, not_busy_tx _, holds_tx _ _ _ _ _ _ (by decide), ?_, ?_, by decide⟩ <;>
  first
  | (unfold PlainRequest; decide)
  | (unfold MultiRequest; decide)

theorem witness_DecreqCommand_refused :
    1 < (2#8).toNat ∧ armed.receiving = true ∧
      ((withTx .rtu req).receiving = false ∧ (withTx .rtu req).rxState ≠ .complete) ∧
      (Selects 0#8 .txb ∧ ¬(withTx .rtu [1#8]).RxBusy .txb ∧ (withTx .rtu [1#8]).Holds .txb [1#8] ∧
        (withTx .rtu [1#8]).bodyOf [1#8] .txb < (withTx .rtu [1#8]).h + 1) ∧
      (Selects 0#8 .txb ∧ ¬(withTx .rtu (req.take 5)).RxBusy .txb ∧ (withTx .rtu (req.take 5)).Holds .txb (req.take 5) ∧
        PlainRequest ((req.take 5).getD (withTx .rtu (req.take 5)).h 0#8) ∧
        (withTx .rtu (req.take 5)).bodyOf (req.take 5) .txb < (withTx .rtu (req.take 5)).h + 5) ∧
      (Selects 0#8 .txb ∧ ¬(withTx .rtu (multi.take 6)).RxBusy .txb ∧
        (withTx .rtu (multi.take 6)).Holds .txb (multi.take 6) ∧
        MultiRequest ((multi.take 6).getD (withTx .rtu (multi.take 6)).h 0#8) ∧
        (withTx .rtu (multi.take 6)).bodyOf (multi.take 6) .txb < (withTx .rtu (multi.take 6)).h + 6) := by
  refine ⟨by decide, by decide, by decide,
    ⟨selects_tx, not_busy_tx _, holds_tx _ _ _ _ _ _ (by decide), by decide⟩,
    ⟨selects_tx, not_busy_tx _, holds_tx _ _ _ _ _ _ (by decide), ?_, by decide⟩,
    selects_tx, not_busy_tx _, holds_tx _ _ _ _ _ _ (by decide), ?_, by decide⟩ <;>
  first
  | (unfold PlainRequest; decide)
  | (unfold MultiRequest; decide)

theorem witness_DecrspCommand :
    (doneTcp.rxState = .complete ∧ doneTcp.Holds .rxb rspTcp ∧ doneTcp.Holds .txb reqTcp ∧
        doneTcp.h + 1 ≤ rspTcp.length ∧ doneTcp.h + 1 ≤ doneTcp.bodyOf reqTcp .txb) ∧
      (doneExc.rxState = .complete ∧ doneExc.Holds .rxb excRsp ∧ doneExc.Holds .txb reqCrc ∧
        doneExc.h + 1 ≤ excRsp.length ∧ doneExc.h + 1 ≤ doneExc.bodyOf reqCrc .txb) ∧
      armed.receiving = true ∧ ((withTx .rtu req).receiving = false ∧ (withTx .rtu req).rxState ≠ .complete) ∧
      ((idleState .rtu false [1#8] rsp .complete .ok).receiving = false ∧
        (idleState .rtu false [1#8] rsp .complete .ok).bodyLen .txb < 1 + 1) :=
  ⟨⟨rfl, holds_rx _ _ _ _ _ _ (by decide), holds_tx _ _ _ _ _ _ (by decide), by decide, by decide⟩,
    ⟨rfl, holds_rx _ _ _ _ _ _ (by decide), holds_tx _ _ _ _ _ _ (by decide), by decide, by decide⟩,
    rfl, by decide, by decide⟩

/-- Receive complete, with the request given in TXB. -/
def against (tx : List Byte) : State := idleState .rtu false tx rsp .complete .ok

theorem witness_ChkqtyCommand_exception :
    (9#8).toNat ≤ 9 ∧ doneExc.rxState = .complete ∧ doneExc.h + 1 ≤ doneExc.bodyLen .txb ∧
      doneExc.rxResult = .remoteException ∧ doneExc.Holds .rxb excRsp ∧ doneExc.h + 2 ≤ excRsp.length :=
  ⟨by decide, rfl, by decide, rfl, holds_rx _ _ _ _ _ _ (by decide), by decide⟩

theorem witness_ChkqtyCommand_response (tx : List Byte) (h : tx.length < 512) :
    (9#8).toNat ≤ 9 ∧ (against tx).rxState = .complete ∧ (against tx).rxResult ≠ .remoteException ∧
      (against tx).Holds .rxb rsp ∧ (against tx).Holds .txb tx :=
  ⟨by decide, rfl, by simp [against, idleState], holds_rx _ _ _ _ _ _ (by decide), holds_tx _ _ _ _ _ _ h⟩

/-- The requests of the four cases: a write, a read without its count, a bit read, a register read. -/
theorem witness_ChkqtyCommand_requests :
    ((against multi).h + 1 ≤ (against multi).bodyOf multi .txb ∧
        multi.getD (against multi).h 0#8 ∉ [0x01#8, 0x02#8, 0x03#8, 0x04#8]) ∧
      ((against (req.take 5)).h + 1 ≤ (against (req.take 5)).bodyOf (req.take 5) .txb ∧
        (req.take 5).getD (against (req.take 5)).h 0#8 ∈ [0x01#8, 0x02#8, 0x03#8, 0x04#8] ∧
        (against (req.take 5)).bodyOf (req.take 5) .txb < (against (req.take 5)).h + 5) ∧
      ((against coils).h + 1 ≤ (against coils).bodyOf coils .txb ∧
        coils.getD (against coils).h 0#8 ∈ [0x01#8, 0x02#8] ∧
        (against coils).h + 5 ≤ (against coils).bodyOf coils .txb) ∧
      ((against req).h + 1 ≤ (against req).bodyOf req .txb ∧ req.getD (against req).h 0#8 ∈ [0x03#8, 0x04#8] ∧
        (against req).h + 5 ≤ (against req).bodyOf req .txb) := by decide

theorem witness_ChkqtyCommand_refused :
    9 < (10#8).toNat ∧ ((9#8).toNat ≤ 9 ∧ armed.receiving = true) ∧
      ((withTx .rtu req).receiving = false ∧ (withTx .rtu req).rxState ≠ .complete) ∧
      ((against [1#8]).receiving = false ∧ (against [1#8]).bodyLen .txb < (against [1#8]).h + 1) := by decide

/-- Receive complete, with the frame given in RXB. -/
def received (rx : List Byte) : State := idleState .rtu false [] rx .complete .ok

/-- The last value of the response. -/
theorem witness_UnpackCommand_value :
    (3#8).toNat ≤ 5 ∧ done.rxState = .complete ∧ done.rxResult = .ok ∧ done.Holds .rxb rsp ∧
      done.h + 2 ≤ done.bodyOf rsp .rxb ∧ bytesPerValue 3#8 * ((1#16).toNat + 1) ≤ (rsp.getD (done.h + 1) 0#8).toNat ∧
      5 = done.h + 2 + bytesPerValue 3#8 * (1#16).toNat ∧ 5 + bytesPerValue 3#8 ≤ done.bodyOf rsp .rxb :=
  ⟨by decide, rfl, rfl, holds_rx _ _ _ _ _ _ (by decide), by decide, by decide, by decide, by decide⟩

theorem witness_UnpackCommand_refused :
    9 < (10#8).toNat ∧ ((9#8).toNat ≤ 9 ∧ armed.receiving = true) ∧
      (doneExc.receiving = false ∧ doneExc.rxResult ≠ .ok) ∧
      ((withTx .rtu req).receiving = false ∧ (withTx .rtu req).rxState ≠ .complete) ∧
      (6 ≤ (6#8).toNat ∧ (6#8).toNat ≤ 9 ∧ done.rxState = .complete ∧ done.rxResult = .ok) := by decide

/-- A body without a byte count, the first value beyond the byte count, a byte count larger than the body. -/
theorem witness_UnpackCommand_range :
    ((5#8).toNat ≤ 5 ∧ (received [1#8, 3#8, 0x40#8, 0x21#8]).rxState = .complete ∧
        (received [1#8, 3#8, 0x40#8, 0x21#8]).rxResult = .ok ∧
        (received [1#8, 3#8, 0x40#8, 0x21#8]).Holds .rxb [1#8, 3#8, 0x40#8, 0x21#8] ∧
        (received [1#8, 3#8, 0x40#8, 0x21#8]).bodyOf [1#8, 3#8, 0x40#8, 0x21#8] .rxb <
          (received [1#8, 3#8, 0x40#8, 0x21#8]).h + 2) ∧
      (done.Holds .rxb rsp ∧ (rsp.getD (done.h + 1) 0#8).toNat < bytesPerValue 3#8 * ((2#16).toNat + 1)) ∧
      ((received [1#8, 3#8, 2#8, 0xA1#8, 0x31#8]).Holds .rxb [1#8, 3#8, 2#8, 0xA1#8, 0x31#8] ∧
        (received [1#8, 3#8, 2#8, 0xA1#8, 0x31#8]).bodyOf [1#8, 3#8, 2#8, 0xA1#8, 0x31#8] .rxb <
          (received [1#8, 3#8, 2#8, 0xA1#8, 0x31#8]).h + 2 + bytesPerValue 1#8 * (0#16).toNat + bytesPerValue 1#8) :=
  ⟨⟨by decide, rfl, rfl, holds_rx _ _ _ _ _ _ (by decide), by decide⟩,
    ⟨holds_rx _ _ _ _ _ _ (by decide), by decide⟩, holds_rx _ _ _ _ _ _ (by decide), by decide⟩

/-- The least and the greatest length of each mode, and the values next to them. -/
theorem witness_RxfixCommand :
    (done.receiving = false ∧ Config.excLen done.mode ≤ (5#32).toNat ∧ (256#32).toNat ≤ done.maxAdu) ∧
      (doneTcp.receiving = false ∧ Config.excLen doneTcp.mode ≤ (9#32).toNat ∧ (260#32).toNat ≤ doneTcp.maxAdu) ∧
      ((4#32).toNat < Config.excLen done.mode ∧ done.maxAdu < (257#32).toNat ∧ doneTcp.maxAdu < (261#32).toNat) ∧
      armed.receiving = true := by decide

theorem witness_RxundCommand : done.receiving = false ∧ armed.receiving = true := by decide

theorem witness_ByteInsideSegment :
    brings (.evByte 0x0A#8) = some 0x0A#8 ∧ armed.receiving = true ∧ armed.Holds .rxb [] ∧ ([] : List Byte).length < 260 ∧
      2 ≤ armed.rxNeed.toNat :=
  ⟨rfl, rfl, holds_receiving _ _ _ _ _ _ _ (by decide), by decide, by decide⟩

/-- Seven header bytes of a TCP frame. -/
def mbap : List Byte := [0x00#8, 0x01#8, 0x00#8, 0x00#8, 0x00#8, 0x02#8, 0x01#8]

/-- One byte from the function byte in TCP mode. -/
def atFunctionTcp : State := receivingState .tcp .undefinedLength false .awaitFunction mbap 1 8

theorem witness_FunctionByteArrives :
    (brings .fc0F = some 0x0F#8 ∧ atFunction.rxState = .awaitFunction ∧ atFunction.rxNeed = 1#9 ∧
        atFunction.Holds .rxb [0x0A#8] ∧ [0x0A#8].length = atFunction.h ∧ atFunction.rxTotal.toNat = atFunction.h + 1 ∧
        0 < extraHeader 0x0F#8) ∧
      (brings .fc07 = some 0x07#8 ∧ extraHeader 0x07#8 = 0 ∧ atFunction.mode = .rtu) ∧
      (brings (.evByte 0x2B#8) = some 0x2B#8 ∧ atFunctionTcp.rxState = .awaitFunction ∧ atFunctionTcp.rxNeed = 1#9 ∧
        atFunctionTcp.Holds .rxb mbap ∧ mbap.length = atFunctionTcp.h ∧
        atFunctionTcp.rxTotal.toNat = atFunctionTcp.h + 1 ∧ extraHeader 0x2B#8 = 0 ∧ atFunctionTcp.mode = .tcp) :=
  ⟨⟨rfl, rfl, by decide, holds_receiving _ _ _ _ _ _ _ (by decide), by decide, by decide, by decide⟩, by decide,
    rfl, rfl, by decide, holds_receiving _ _ _ _ _ _ _ (by decide), by decide, by decide, by decide, rfl⟩

/-- A multi-write in RTU mode before its byte count. -/
def beforeCount : List Byte := [0x0A#8, 0x10#8, 0x00#8, 0x01#8, 0x00#8, 0x02#8]

/-- The receiver before it. -/
def atCount : State := receivingState .rtu .undefinedLength false .awaitRemainder beforeCount 1 7

/-- A read request in TCP mode before its last byte. -/
def atLastTcp : State := receivingState .tcp .undefinedLength false .awaitRemainder (reqTcp.take 11) 1 12

/-- The byte count 247 makes the longest frame, 248 one that is too long. -/
theorem witness_ExtraHeaderCompletes_rtu :
    (brings (.evByte 0xF7#8) = some 0xF7#8 ∧ atCount.rxState = .awaitRemainder ∧ atCount.rxKnown = false ∧
        atCount.rxNeed = 1#9 ∧ atCount.Holds .rxb beforeCount ∧ atCount.h + 1 ≤ beforeCount.length ∧
        beforeCount.length = atCount.h + extraHeader (beforeCount.getD atCount.h 0#8) ∧
        atCount.rxTotal.toNat = beforeCount.length + 1) ∧
      (249 = trailingPayload atCount.h (beforeCount ++ [0xF7#8]) + atCount.ck ∧ 256 = beforeCount.length + 1 + 249 ∧
        256 ≤ atCount.maxAdu ∧ 0 < 249) ∧
      (250 = trailingPayload atCount.h (beforeCount ++ [0xF8#8]) + atCount.ck ∧ 257 = beforeCount.length + 1 + 250 ∧
        atCount.maxAdu < 257) :=
  ⟨⟨rfl, rfl, rfl, by decide, holds_receiving _ _ _ _ _ _ _ (by decide), by decide, by decide, by decide⟩, by decide,
    by decide⟩

theorem witness_ExtraHeaderCompletes_tcp :
    brings (.evByte 0x02#8) = some 0x02#8 ∧ atLastTcp.rxState = .awaitRemainder ∧ atLastTcp.rxKnown = false ∧
      atLastTcp.rxNeed = 1#9 ∧ atLastTcp.Holds .rxb (reqTcp.take 11) ∧ atLastTcp.h + 1 ≤ (reqTcp.take 11).length ∧
      (reqTcp.take 11).length = atLastTcp.h + extraHeader ((reqTcp.take 11).getD atLastTcp.h 0#8) ∧
      atLastTcp.rxTotal.toNat = (reqTcp.take 11).length + 1 ∧
      0 = trailingPayload atLastTcp.h (reqTcp.take 11 ++ [0x02#8]) + atLastTcp.ck ∧
      12 = (reqTcp.take 11).length + 1 + 0 ∧ 12 ≤ atLastTcp.maxAdu :=
  ⟨rfl, rfl, rfl, by decide, holds_receiving _ _ _ _ _ _ _ (by decide), by decide, by decide, by decide, by decide,
    by decide, by decide⟩

/-- The response of section 2.4 before its last byte. -/
def atLast : State := receivingState .rtu .fixed true .awaitRemainder (rsp.take 8) 1 9

theorem witness_LastByteArrives :
    (brings .fc07 = some 0x07#8 ∧ brings .fc06 = some 0x06#8 ∧ atLast.rxState = .awaitRemainder ∧
        atLast.rxKnown = true ∧ atLast.rxNeed = 1#9 ∧ atLast.Holds .rxb (rsp.take 8) ∧
        atLast.h + atLast.ck ≤ (rsp.take 8).length ∧ (rsp.take 8).length < 260) ∧
      FrameAccepted atLast.mode (rsp.take 8 ++ [0x07#8]) ∧ ¬FrameAccepted atLast.mode (rsp.take 8 ++ [0x06#8]) := by
  refine ⟨⟨rfl, rfl, rfl, rfl, by decide, holds_receiving _ _ _ _ _ _ _ (by decide), by decide, by decide⟩,
    .inr ⟨by decide, ?_⟩, ?_⟩
  · decide +kernel
  · rintro (h | ⟨-, h⟩)
    · cases h
    · exact absurd h (by decide +kernel)

/-- A receive with all its bytes in RXB, before the final step. -/
def atEnd (m : Mode) (rx : List Byte) : State :=
  receivingState m .undefinedLength true .awaitRemainder rx 0 rx.length

theorem holds_atEnd (m : Mode) (rx : List Byte) (h : rx.length < 512) : (atEnd m rx).Holds .rxb rx :=
  holds_receiving _ _ _ _ _ _ _ h

/-- The shortest frame in RTU mode with a good and a bad checksum, and the shortest in TCP mode. -/
theorem witness_FinishChecksTheFrame :
    ((atEnd .rtu [0x01#8, 0x07#8, 0x41#8, 0xE2#8]).Holds .rxb [0x01#8, 0x07#8, 0x41#8, 0xE2#8] ∧
        (atEnd .rtu [0x01#8, 0x07#8, 0x41#8, 0xE2#8]).h + 1 +
          (atEnd .rtu [0x01#8, 0x07#8, 0x41#8, 0xE2#8]).ck ≤ 4 ∧
        crc16 [0x01#8, 0x07#8] = field16 [0x01#8, 0x07#8, 0x41#8, 0xE2#8] 2) ∧
      ((atEnd .rtu [0x01#8, 0x07#8, 0x41#8, 0xE3#8]).Holds .rxb [0x01#8, 0x07#8, 0x41#8, 0xE3#8] ∧
        (atEnd .rtu [0x01#8, 0x07#8, 0x41#8, 0xE3#8]).mode = .rtu ∧
        crc16 [0x01#8, 0x07#8] ≠ field16 [0x01#8, 0x07#8, 0x41#8, 0xE3#8] 2) ∧
      ((atEnd .tcp (mbap ++ [0x07#8])).Holds .rxb (mbap ++ [0x07#8]) ∧ (atEnd .tcp (mbap ++ [0x07#8])).mode = .tcp ∧
        (atEnd .tcp (mbap ++ [0x07#8])).h + 1 + (atEnd .tcp (mbap ++ [0x07#8])).ck ≤ (mbap ++ [0x07#8]).length) :=
  ⟨⟨holds_atEnd _ _ (by decide), by decide, by decide +kernel⟩,
    ⟨holds_atEnd _ _ (by decide), rfl, by decide +kernel⟩, holds_atEnd _ _ (by decide), rfl, by decide⟩

theorem witness_TransportConditions : armed.receiving = true ∧ done.receiving = false := by decide

theorem witness_WaitEndsAtTheLastTick :
    done.receiving = false ∧ (armed.receiving = true ∧ 2 ≤ armed.rxTimer.toNat) ∧ 49 < max armed.rxTimer.toNat 1 ∧
      0 < max (0#32).toNat 1 := by decide

/-- The last tick of a fixed-length receive with the bytes given. -/
def lastTick (m : Mode) (rx : List Byte) : State :=
  { receivingState m .fixed true .awaitRemainder rx 4 13 with rxTimer := 1#32 }

theorem holds_lastTick (m : Mode) (rx : List Byte) (h : rx.length < 512) : (lastTick m rx).Holds .rxb rx :=
  ⟨toNat_toLen h, Memory.holds_ofBytes rx⟩

theorem witness_TimeoutOutcomes_exception (m : Mode) (rx : List Byte) (h : rx.length = Config.excLen m) :
    (lastTick m rx).receiving = true ∧ (lastTick m rx).rxTimer.toNat ≤ 1 ∧ (lastTick m rx).rxKind = .fixed ∧
      (lastTick m rx).Holds .rxb rx ∧ rx.length = Config.excLen (lastTick m rx).mode :=
  ⟨rfl, by simp [lastTick], rfl, holds_lastTick m rx (by cases m <;> simp [h, Config.excLen, Config.hdr, Config.ck]), h⟩

/-- Each outcome: a bad checksum, an exception frame, a frame without bit 7. -/
theorem witness_TimeoutOutcomes_cases :
    ((excRsp.set 4 0xF0#8).length = Config.excLen .rtu ∧
        crc16 ((excRsp.set 4 0xF0#8).take 3) ≠ field16 (excRsp.set 4 0xF0#8) 3) ∧
      (excRsp.length = Config.excLen .rtu ∧ crc16 (excRsp.take 3) = field16 excRsp 3 ∧
        0x80 ≤ (excRsp.getD 1 0#8).toNat) ∧
      ((rspTcp.take 9).length = Config.excLen .tcp ∧ ¬0x80 ≤ ((rspTcp.take 9).getD 7 0#8).toNat) := by decide +kernel

theorem witness_TimeoutOutcomes_other :
    ((lastTick .rtu [1#8, 3#8]).receiving = true ∧ (lastTick .rtu [1#8, 3#8]).rxTimer.toNat ≤ 1 ∧
        (lastTick .rtu [1#8, 3#8]).rxLen.toNat ≠ Config.excLen (lastTick .rtu [1#8, 3#8]).mode) ∧
      ({ armed with rxTimer := 0#32 }.receiving = true ∧ { armed with rxTimer := 0#32 }.rxTimer.toNat ≤ 1 ∧
        { armed with rxTimer := 0#32 }.rxKind = .undefinedLength) := by decide

/-- A receive armed with 200 ticks, an interrupt after every 199; and a wait of 0 with interrupts alone. -/
theorem witness_InterruptsKeepAReceiveAlive :
    (∃ s : State, s.receiving = true ∧ s.inbox = [] ∧
        s.later = .again (List.replicate 199 .tick ++ [.transport 0x300#10]) ∧ s.rxTimer = s.rxReload ∧
        199 < max s.rxReload.toNat 1 ∧ 199 ≤ 199) ∧
      ∃ s : State, s.receiving = true ∧ s.inbox = [] ∧
        s.later = .again (List.replicate 0 .tick ++ [.transport 0x300#10]) ∧ s.rxTimer = s.rxReload ∧
        s.rxReload = 0#32 ∧ 0 < max s.rxReload.toNat 1 :=
  ⟨⟨{ armed with
        rxTimer := 200#32
        later := .again (List.replicate 199 .tick ++ [.transport 0x300#10]) },
      rfl, rfl, rfl, rfl, by decide, Nat.le_refl _⟩,
    ⟨{ armed with
        rxTimer := 0#32
        rxReload := 0#32
        later := .again [.transport 0x300#10] },
      rfl, rfl, rfl, rfl, rfl, by decide⟩⟩

theorem witness_FixedLengthReceiveOfWholeFrame :
    (done.receiving = false ∧ Config.excLen done.mode ≤ rsp.length ∧ rsp.length ≤ done.maxAdu) ∧
      FrameAccepted done.mode rsp ∧ ¬FrameAccepted done.mode (rsp.set 8 0x06#8) := by
  refine ⟨by decide, .inr ⟨by decide, by decide +kernel⟩, ?_⟩
  rintro (h | ⟨-, h⟩)
  · cases h
  · exact absurd h (by decide +kernel)

/-- A request, the report-slave-id response of program P5 and an exception response. -/
theorem witness_UndefinedLengthReceiveOfWholeFrame :
    (done.receiving = false ∧ reqCrc.length ≤ done.maxAdu ∧
        done.h + 1 + extraHeader (reqCrc.getD done.h 0#8) + done.ck ≤ reqCrc.length ∧
        reqCrc.length =
          done.h + 1 + extraHeader (reqCrc.getD done.h 0#8) + trailingPayload done.h reqCrc + done.ck) ∧
      ([0x01#8, 0x11#8, 0x03#8, 0xAA#8, 0xBB#8, 0xCC#8, 0xAF#8, 0x08#8].length =
        1 + 1 + extraHeader 0x11#8 +
          trailingPayload 1 [0x01#8, 0x11#8, 0x03#8, 0xAA#8, 0xBB#8, 0xCC#8, 0xAF#8, 0x08#8] + 2) ∧
      (excRsp.length = 1 + 1 + extraHeader (excRsp.getD 1 0#8) + trailingPayload 1 excRsp + 2) := by decide

/-- After the exchange of section 2.4, with CHKQTY next. -/
def doneNext : State := { done with inbox := [.command 0x4303000000000000#64] }

theorem doneNext_inv : doneNext.Inv where
  buffersWf := ⟨by decide, by decide⟩
  buffersFilled := ⟨(Memory.holds_ofBytes reqCrc).filled, (Memory.holds_ofBytes rsp).filled⟩
  txInv := ⟨by decide, fun _ => by decide⟩
  rxInv := ⟨by decide, by decide, by decide, by decide, rfl, by decide +kernel, 0x03#8, by decide, by decide, by decide⟩
  staCode := rfl
  r7Zero := rfl

theorem witness_StepKeepsInvariant : doneNext.Inv ∧ ∃ t, step doneNext = .next t := ⟨doneNext_inv, _, rfl⟩

theorem witness_NoStepFaults : doneNext.Inv := doneNext_inv

theorem witness_StepKeepsBuffersCanonical :
    doneNext.BuffersWf ∧ doneNext.txLen.toNat ≤ doneNext.maxAdu ∧ ∃ t, step doneNext = .next t :=
  ⟨doneNext_inv.buffersWf, doneNext_inv.txInv.1, _, rfl⟩

theorem witness_RefusalChangesOnlySta :
    Instr.final.port = .host ∧ ∃ t, exec .final done = .next t ∧ t.sta ≠ .ok ∧ t.sta ≠ .remoteException :=
  ⟨rfl, _, rfl, by decide, by decide⟩

theorem witness_RegisterSevenIsNeverWritten : Instr.nop ≠ .reset ∧ ∃ t, exec .nop done = .next t := ⟨by decide, _, rfl⟩

theorem witness_TidMovesOnlyInTcpRequests :
    ∃ t, exec (.bldreq 1#8 3#8 0#16 2#16) doneTcp = .next t ∧ t.tid ≠ doneTcp.tid := ⟨_, rfl, by decide⟩

theorem witness_EventsChangeOnlyTheReceiver :
    Instr.evIntr.port = .transport ∧ (∃ t, exec .evIntr armed = .next t) ∧ Instr.tick.port = .time ∧
      ∃ t, exec .tick armed = .next t := ⟨rfl, ⟨_, rfl⟩, rfl, _, rfl⟩

theorem witness_HostCannotTouchTheReceiver :
    Instr.txclr.port = .host ∧ (∃ t, exec .txclr armed = .next t) ∧ (∀ e, Instr.txclr ≠ .rxfix e) ∧
      Instr.txclr ≠ .rxund ∧ ∀ reg value, Instr.txclr ≠ .cfgw reg value := by
  refine ⟨rfl, ⟨_, rfl⟩, ?_, ?_, ?_⟩ <;> simp

/-- Receiving, with a finalised request in TXB. -/
def armedTx : State := { armed with txb := Memory.ofBytes reqCrc, txLen := 8#9, txFinal := true }

theorem witness_ReceivingCommandsAreBusy :
    (armed.receiving = true ∧ (Instr.unpack 9#8 0#16).wellFormed = true ∧
        (Instr.cfgw 3#8 0#32).wellFormed = true) ∧
      (armedTx.receiving = true ∧ armedTx.Holds .txb reqCrc) ∧ armed.receiving = true ∧ armed.Holds .txb [] :=
  ⟨by decide, ⟨rfl, by decide, Memory.holds_ofBytes reqCrc⟩, rfl, State.holds_txb_nil rfl rfl⟩

theorem witness_OutboundCommandsIgnoreTheReceiver :
    ∃ t, SameResults armed atFunction ∧ atFunction.sta = armed.sta ∧ SameConfig armed atFunction ∧
      SameTx armed atFunction ∧ exec (.pushb 1#8) armed = .next t :=
  ⟨_, ⟨rfl, rfl, rfl, rfl, rfl, rfl, rfl, rfl⟩, rfl, ⟨rfl, rfl, rfl, rfl⟩, ⟨rfl, rfl, rfl, rfl⟩, rfl⟩

theorem witness_TerminalStateIsLeftOnlyByTheHost :
    ∃ t, done.rxState = .complete ∧ exec .rxund done = .next t ∧ t.rxState ≠ done.rxState := ⟨_, rfl, rfl, by decide⟩

theorem witness_CommandStatusCodes : Instr.decrsp.port = .host ∧ ∃ t, exec .decrsp armed = .next t := ⟨rfl, _, rfl⟩

/-- In this receiving state every instruction completes, so the step takes whatever event a free order brings. -/
theorem armed_completes (i : Instr) (l : Later) : ∃ t, exec i { armed with later := l } = .next t := by
  cases i with
  | cfgw reg value => simp only [exec, execCfgw]; split <;> exact ⟨_, rfl⟩
  | cfgr reg => simp only [exec, execCfgr]; split <;> exact ⟨_, rfl⟩
  | crc16 b len =>
    simp only [exec, execCrc16]
    split
    · exact ⟨_, rfl⟩
    · rename_i buf _
      cases buf
      · rcases Nat.eq_zero_or_pos len.toNat with h | h
        · rw [h]; exact ⟨_, rfl⟩
        · exact ⟨_, if_pos h⟩
      · exact ⟨_, rfl⟩
  | crcv b len =>
    simp only [exec, execCrcv]
    split
    · exact ⟨_, rfl⟩
    · rename_i buf _
      cases buf
      · exact ⟨_, if_pos (show len.toNat < 2 ∨ 0 < len.toNat by omega)⟩
      · exact ⟨_, rfl⟩
  | ldb b idx =>
    simp only [exec, execLdb]
    split
    · exact ⟨_, rfl⟩
    · rename_i buf _
      cases buf <;> exact ⟨_, rfl⟩
  | bldreq slave f addr count => simp only [exec, execBldreq]; split <;> exact ⟨_, rfl⟩
  | predict w => simp only [exec, execPredict]; split <;> exact ⟨_, rfl⟩
  | decreq b =>
    simp only [exec, execDecreq]
    split
    · exact ⟨_, rfl⟩
    · rename_i buf _
      cases buf <;> exact ⟨_, rfl⟩
  | chkqty w => simp only [exec, execChkqty]; split <;> exact ⟨_, rfl⟩
  | unpack w idx => simp only [exec, execUnpack]; split <;> exact ⟨_, rfl⟩
  | _ => exact ⟨_, rfl⟩

theorem armed_free_step : ∃ t, step { armed with later := .free 0 } = .next t := by
  show ∃ t, runWord (Config.freeEvent 0) { armed with later := .free 1 } = .next t
  unfold runWord
  split
  · exact armed_completes _ _
  · exact ⟨_, rfl⟩

/-- The three sources of the delivery; nothing of the inbox is enabled in the second and third. -/
theorem witness_StepTakesOneDelivery :
    ((∃ t, step doneNext = .next t) ∧ nextDelivery doneNext.receiving doneNext.inbox ≠ none ∧
        doneNext.receiving = false) ∧
      ((∃ t, step doneAgain = .next t) ∧ nextDelivery doneAgain.receiving doneAgain.inbox = none ∧
        doneAgain.later = .again [.transport 0x002#10, .tick] ∧ doneAgain.receiving = false) ∧
      (∃ t, step { armed with later := .free 0 } = .next t) ∧
        nextDelivery { armed with later := .free 0 }.receiving { armed with later := .free 0 }.inbox = none :=
  ⟨⟨⟨_, rfl⟩, by decide, rfl⟩, ⟨⟨_, rfl⟩, by decide, rfl, rfl⟩, armed_free_step, rfl⟩

end Sys2Proof.Tests
end

section
/-!
PROOFS. The family 00_scope: a refused command changes `sta` alone (R10), and a step is `exec` of the instruction the
next event decodes to (R5).
-/

namespace Sys2Proof.Machine

theorem Refuses.eq_with_sta {s t : State} (h : Refuses s t) : t = { s with sta := t.sta } := by
  obtain ⟨c, -, -, -, rfl⟩ := h
  rfl

/-- The ways a command can end that are no refusal: with OK, with REMOTE_EXCEPTION (42_predict_decode R166), or as an
RXFIX whose receive ends at once with INVALID_DATA (43_receiver R193). -/
def EndsUnrefused (i : Instr) (c : Status) : Prop :=
  c = .ok ∨ c = .remoteException ∨ (∃ e, i = .rxfix e) ∧ c = .invalidData

theorem EndsUnrefused.of_done_ok {i : Instr} {u t : State} (h : t = u.done .ok) : EndsUnrefused i t.sta :=
  .inl (by rw [h, State.done_sta])

/-- How a host command can end: refused, or with a status that is no refusal of it (00_scope R10, 60_exceptions
R250). -/
theorem exec_host_eq_next {i : Instr} {s t : State} (hp : i.port = .host) (h : exec i s = .next t) :
    Refuses s t ∨ EndsUnrefused i t.sta := by
  cases i with
  | nop => exact .inr (.of_done_ok (execNop_eq_next h))
  | txclr => exact .inr (.of_done_ok (execTxclr_eq_next h))
  | cfgw reg value => exact (execCfgw_eq_next h).imp_right fun ⟨_, _, _, ht⟩ => .of_done_ok ht
  | cfgr reg => exact (execCfgr_eq_next h).imp_right fun ⟨_, ht⟩ => .of_done_ok ht
  | crc16 b len => exact (execCrc16_eq_next h).imp_right fun ⟨_, ht⟩ => .of_done_ok ht
  | crcv b len => exact (execCrcv_eq_next h).imp_right fun ⟨_, ht⟩ => .of_done_ok ht
  | pushb byte => exact (execPushb_eq_next h).imp_right fun ⟨_, _, ht⟩ => .of_done_ok ht
  | ldb b idx => exact (execLdb_eq_next h).imp_right fun ⟨_, ht⟩ => .of_done_ok ht
  | bldreq slave function addr count => exact (execBldreq_eq_next h).imp_right .of_done_ok
  | bldrsp function => exact (execBldrsp_eq_next h).imp_right fun ⟨_, _, _, ht⟩ => .of_done_ok ht
  | bldexc code => exact (execBldexc_eq_next h).imp_right fun ⟨_, _, _, _, ht⟩ => .of_done_ok ht
  | final =>
    rcases execFinal_eq_next h with hr | ⟨-, -, -, ⟨-, r, ht⟩ | ⟨-, ht⟩⟩
    · exact .inl hr
    · exact .inr (.of_done_ok ht)
    · exact .inr (.of_done_ok ht)
  | predict w => exact (execPredict_eq_next h).imp_right fun ⟨_, ht⟩ => .of_done_ok ht
  | decreq b => exact (execDecreq_eq_next h).imp_right fun ⟨_, ht⟩ => .of_done_ok ht
  | decrsp => exact (execDecrsp_eq_next h).imp_right fun ⟨_, ht⟩ => .of_done_ok ht
  | chkqty w =>
    rcases execChkqty_eq_next h with hr | ⟨v, c, rfl | rfl, ht⟩
    · exact .inl hr
    · exact .inr (.of_done_ok ht)
    · exact .inr (.inr (.inl (by rw [ht, State.done_sta])))
  | unpack w idx => exact (execUnpack_eq_next h).imp_right fun ⟨_, ht⟩ => .of_done_ok ht
  | rxfix e =>
    rcases execRxfix_eq_next h with hr | ⟨-, ht⟩ | ⟨-, -, -, ht⟩
    · exact .inl hr
    · exact .inr (.inr (.inr ⟨⟨e, rfl⟩, by rw [ht, State.done_sta]⟩))
    · exact .inr (.of_done_ok ht)
  | rxund => exact (execRxund_eq_next h).imp_right fun ⟨_, ht⟩ => .of_done_ok ht
  | _ => nomatch hp

/-- Settles O51: every command is taken apart by its inversion lemma, and of the ways to end the hypotheses leave the
refusal alone. -/
theorem refusalChangesOnlySta : Obligations.RefusalChangesOnlySta := by
  intro i s t hp h hok hre hrx
  rcases exec_host_eq_next hp h with hr | hc | hc | ⟨⟨e, he⟩, hc⟩
  · exact hr.eq_with_sta
  · exact absurd hc hok
  · exact absurd hc hre
  · exact absurd ((hrx e he).symm.trans hc) (by decide)

theorem step_eq_exec {s u : State} {p : PortWord} {i : Instr} (hn : s.nextEvent = some (p, u))
    (hd : decode p = .ok i) : step s = exec i u := by
  simp only [step, runNext, runWord, hn, hd]

theorem State.nextEvent_of_inbox {s : State} {p : PortWord} {rest : List PortWord}
    (h : nextDelivery s.receiving s.inbox = some (p, rest)) : s.nextEvent = some (p, { s with inbox := rest }) := by
  simp only [State.nextEvent, h]

theorem State.nextEvent_of_again {s : State} {p : PortWord} {items rest : List PortWord}
    (hn : nextDelivery s.receiving s.inbox = none) (hl : s.later = .again items)
    (h : nextDelivery s.receiving items = some (p, rest)) :
    s.nextEvent = some (p, { s with inbox := s.inbox ++ rest }) := by
  simp only [State.nextEvent, hn, hl, h]

theorem State.nextEvent_of_free {s : State} {n : Nat} (hn : nextDelivery s.receiving s.inbox = none)
    (hl : s.later = .free n) (h : s.receiving = true ∨ isTransport (Config.freeEvent n) = false) :
    s.nextEvent = some (Config.freeEvent n, { s with later := .free (n + 1) }) := by
  have he : (s.receiving || !isTransport (Config.freeEvent n)) = true := by simpa using h
  simp only [State.nextEvent, hn, hl, he, if_true]

/-- Settles O6: one equation of the step, and one of `State.nextEvent` per place the event can come from. -/
theorem stepRunsDecodedInstruction : Obligations.StepRunsDecodedInstruction := by
  refine ⟨fun s u p i hn hd _ => step_eq_exec hn hd, fun s p rest h => State.nextEvent_of_inbox h,
    fun s p items rest hn hl h => State.nextEvent_of_again hn hl h, fun s n hn hl h => ?_⟩
  exact State.nextEvent_of_free hn hl (h.imp_right decide_eq_false)

end Sys2Proof.Machine
end

section
/-!
PROOFS. The family 10_state: RESET gives every piece of state its reset value (R39), no other instruction writes `r[7]`
(R22), and `tid` moves only in a BLDREQ in TCP mode (R31).
-/

namespace Sys2Proof.Machine

/-- Settles O43: the state RESET answers is `State.reset` but for the environment's two fields. -/
theorem resetLeavesResetValues : Obligations.ResetLeavesResetValues := fun s =>
  ⟨{ State.reset with inbox := s.inbox, later := s.later }, rfl, rfl, rfl, rfl, rfl, rfl, rfl, rfl, rfl, rfl, rfl, rfl,
    rfl, rfl, rfl, rfl, rfl, State.holds_txb_nil rfl rfl, rfl, rfl, rfl, rfl, rfl, State.holds_rxb_nil rfl rfl,
    rfl, rfl, rfl, rfl⟩

theorem Instr.eq_reset_of_port {i : Instr} (h : i.port = .reset) : i = .reset := by
  cases i with
  | reset => rfl
  | _ => nomatch h

/-- A transport event, a function-code row or a TICK changes the receiver's side alone (20_memory R69). -/
theorem exec_event_onlyRx {i : Instr} {s t : State} (hp : i.port = .transport ∨ i.port = .time)
    (h : exec i s = .next t) : OnlyRx s t := by
  cases hb : brings i with
  | some d => exact takeByte_onlyRx ((exec_of_brings hb s).symm.trans h)
  | none =>
    cases i with
    | evClosed =>
      obtain ⟨-, h⟩ := eq_next_of_enabled h
      cases h
      exact s.rxFault_onlyRx _
    | evFail =>
      obtain ⟨-, h⟩ := eq_next_of_enabled h
      cases h
      exact s.rxFault_onlyRx _
    | evIntr =>
      obtain ⟨-, h⟩ := eq_next_of_enabled h
      cases h
      simp [OnlyRx, SameResults, SameConfig, SameTx, SameEnvironment]
    | tick => exact execTick_onlyRx h
    | _ => simp [Instr.port, brings] at hp hb

/-- `r[7]` and the transaction id are the same: the registers that no instruction but RESET, and but RESET and BLDREQ,
writes (10_state R22, R31). -/
def KeepsR7Tid (s t : State) : Prop := t.r7 = s.r7 ∧ t.tid = s.tid

theorem OnlyRx.keepsR7Tid {s t : State} (h : OnlyRx s t) : KeepsR7Tid s t := by
  obtain ⟨⟨-, -, -, -, -, -, -, hr7⟩, -, -, ⟨htid, -⟩, -⟩ := h
  exact ⟨hr7, htid⟩

theorem Refuses.keepsR7Tid {s t : State} (h : Refuses s t) : KeepsR7Tid s t := by
  rw [h.eq_with_sta]
  exact ⟨rfl, rfl⟩

/-- The commands that read a value into `r[0]` leave the two alone. -/
theorem keepsR7Tid_of_setR0 {s t : State} (h : Refuses s t ∨ ∃ v, t = (s.setR0 v).done .ok) : KeepsR7Tid s t := by
  rcases h with hr | ⟨v, rfl⟩
  · exact hr.keepsR7Tid
  · exact ⟨rfl, rfl⟩

theorem State.configure_keepsR7Tid (s : State) (value : Word) (target : CfgReg) :
    KeepsR7Tid s (s.configure value target) := by
  cases target <;> exact ⟨rfl, rfl⟩

/-- Every host command but BLDREQ leaves `r[7]` and `tid` alone, whether it is refused or runs. -/
theorem exec_host_keepsR7Tid {i : Instr} {s t : State} (hp : i.port = .host)
    (hb : ∀ slave f addr count, i ≠ .bldreq slave f addr count) (h : exec i s = .next t) : KeepsR7Tid s t := by
  cases i with
  | nop => exact execNop_eq_next h ▸ ⟨rfl, rfl⟩
  | txclr => exact execTxclr_eq_next h ▸ ⟨rfl, rfl⟩
  | cfgw reg value =>
    exact (execCfgw_eq_next h).elim (·.keepsR7Tid) fun ⟨_, target, _, ht⟩ => ht ▸ s.configure_keepsR7Tid value target
  | cfgr reg => exact keepsR7Tid_of_setR0 (execCfgr_eq_next h)
  | crc16 b len => exact keepsR7Tid_of_setR0 (execCrc16_eq_next h)
  | crcv b len => exact keepsR7Tid_of_setR0 (execCrcv_eq_next h)
  | pushb byte => exact (execPushb_eq_next h).elim (·.keepsR7Tid) fun ⟨_, _, ht⟩ => ht ▸ ⟨rfl, rfl⟩
  | ldb b idx => exact keepsR7Tid_of_setR0 (execLdb_eq_next h)
  | bldreq slave f addr count => exact absurd rfl (hb slave f addr count)
  | bldrsp f => exact (execBldrsp_eq_next h).elim (·.keepsR7Tid) fun ⟨_, _, _, ht⟩ => ht ▸ ⟨rfl, rfl⟩
  | bldexc code => exact (execBldexc_eq_next h).elim (·.keepsR7Tid) fun ⟨_, _, _, _, ht⟩ => ht ▸ ⟨rfl, rfl⟩
  | final =>
    rcases execFinal_eq_next h with hr | ⟨-, -, -, ⟨-, r, rfl⟩ | ⟨-, rfl⟩⟩
    · exact hr.keepsR7Tid
    · exact ⟨rfl, rfl⟩
    · exact ⟨rfl, rfl⟩
  | predict w => exact (execPredict_eq_next h).elim (·.keepsR7Tid) fun ⟨_, ht⟩ => ht ▸ ⟨rfl, rfl⟩
  | decreq b => exact (execDecreq_eq_next h).elim (·.keepsR7Tid) fun ⟨_, ht⟩ => ht ▸ ⟨rfl, rfl⟩
  | decrsp => exact (execDecrsp_eq_next h).elim (·.keepsR7Tid) fun ⟨_, ht⟩ => ht ▸ ⟨rfl, rfl⟩
  | chkqty w => exact (execChkqty_eq_next h).elim (·.keepsR7Tid) fun ⟨_, _, _, ht⟩ => ht ▸ ⟨rfl, rfl⟩
  | unpack w idx => exact keepsR7Tid_of_setR0 (execUnpack_eq_next h)
  | rxfix e =>
    rcases execRxfix_eq_next h with hr | ⟨-, rfl⟩ | ⟨-, -, -, rfl⟩
    · exact hr.keepsR7Tid
    · exact ⟨rfl, rfl⟩
    · exact ⟨rfl, rfl⟩
  | rxund => exact (execRxund_eq_next h).elim (·.keepsR7Tid) fun ⟨_, ht⟩ => ht ▸ ⟨rfl, rfl⟩
  | _ => nomatch hp

/-- Every instruction but RESET and BLDREQ leaves `r[7]` and `tid` alone: a command by its inversion lemma, an event
because it changes the receiver's side alone. -/
theorem exec_keepsR7Tid {i : Instr} {s t : State} (hi : i ≠ .reset)
    (hb : ∀ slave f addr count, i ≠ .bldreq slave f addr count) (h : exec i s = .next t) : KeepsR7Tid s t := by
  cases hp : i.port with
  | host => exact exec_host_keepsR7Tid hp hb h
  | transport => exact (exec_event_onlyRx (.inl hp) h).keepsR7Tid
  | time => exact (exec_event_onlyRx (.inr hp) h).keepsR7Tid
  | reset => exact absurd (Instr.eq_reset_of_port hp) hi

/-- Settles O52: BLDREQ, which moves `tid`, is the one instruction to look at apart. -/
theorem registerSevenIsNeverWritten : Obligations.RegisterSevenIsNeverWritten := by
  intro i s t hi h
  by_cases hb : ∃ slave f addr count, i = .bldreq slave f addr count
  · obtain ⟨slave, f, addr, count, rfl⟩ := hb
    rcases execBldreq_eq_next h with hr | rfl
    · exact hr.keepsR7Tid.1
    · rfl
  · exact (exec_keepsR7Tid hi (by simpa using hb) h).1

/-- The transaction id a request carries differs from the counter in TCP mode only, by one (10_state R31). -/
theorem State.nextTid_ne {s : State} (h : s.nextTid ≠ s.tid) : s.mode = .tcp ∧ s.nextTid = s.tid + 1#16 := by
  unfold State.nextTid at *
  cases hm : s.mode with
  | rtu => simp [hm] at h
  | tcp => exact ⟨rfl, rfl⟩

/-- Settles O53: only BLDREQ can move `tid`, and a BLDREQ that is not refused leaves `State.nextTid` there. -/
theorem tidMovesOnlyInTcpRequests : Obligations.TidMovesOnlyInTcpRequests := by
  intro i s t hi h hne
  by_cases hb : ∃ slave f addr count, i = .bldreq slave f addr count
  · refine ⟨hb, ?_⟩
    obtain ⟨slave, f, addr, count, rfl⟩ := hb
    rcases execBldreq_eq_next h with hr | rfl
    · exact absurd hr.keepsR7Tid.2 hne
    · obtain ⟨hm, htid⟩ := State.nextTid_ne hne
      exact ⟨hm, rfl, htid⟩
  · exact absurd (exec_keepsR7Tid hi (by simpa using hb) h).2 hne

end Sys2Proof.Machine
end

section
/-!
PROOFS. The family 20_memory: every step keeps the buffers canonical and inside their bounds (R60, R73), events change
the receiver's side alone (R69), and while receiving the commands on RXB are BUSY and those on TXB do what they do at
any other time (R70).
-/

namespace Sys2Proof.Machine

/-- Settles O54: what `exec_event_onlyRx` says of every event, function-code row and TICK. -/
theorem eventsChangeOnlyTheReceiver : Obligations.EventsChangeOnlyTheReceiver :=
  fun _ _ _ hp h => exec_event_onlyRx hp h

/-! ## The buffers stay canonical -/

/-- Both buffers are canonical and TXB is no longer than the mode allows (20_memory R60, 10_state R32). -/
def State.BuffersFit (s : State) : Prop := s.BuffersWf ∧ s.txLen.toNat ≤ s.maxAdu

theorem State.BuffersFit.txb_wf {s : State} (h : s.BuffersFit) : Memory.wf s.txb = true := h.1.1

theorem State.BuffersFit.rxb_wf {s : State} (h : s.BuffersFit) : Memory.wf s.rxb = true := h.1.2

theorem State.BuffersFit.txLen_le {s : State} (h : s.BuffersFit) : s.txLen.toNat ≤ s.maxAdu := h.2

theorem Refuses.buffersFit {s t : State} (h : Refuses s t) (hs : s.BuffersFit) : t.BuffersFit := by
  rw [h.eq_with_sta]
  exact hs

/-- The commands that read a value into `r[0]` leave the buffers alone. -/
theorem buffersFit_of_setR0 {s t : State} (hs : s.BuffersFit) (h : Refuses s t ∨ ∃ v, t = (s.setR0 v).done .ok) :
    t.BuffersFit := by
  rcases h with hr | ⟨v, rfl⟩
  · exact hr.buffersFit hs
  · exact hs

/-- A write of MODE empties both buffers; the other registers have nothing to do with them (44_buffer_config R231). -/
theorem State.configure_buffersFit {s : State} (hs : s.BuffersFit) (value : Word) (target : CfgReg) :
    (s.configure value target).BuffersFit := by
  cases target with
  | mode m => exact ⟨⟨Memory.wf_nil, Memory.wf_nil⟩, Nat.zero_le _⟩
  | tFirst => exact hs
  | tEof => exact hs
  | tResp => exact hs

/-- A build fits where its frame is short, as every frame the block builds is. -/
theorem State.build_buffersFit {s : State} {frame : List Byte} (hs : s.BuffersFit) (hl : frame.length ≤ 12) :
    (s.build frame).BuffersFit := by
  have hlen : (s.build frame).txLen.toNat = frame.length := toNat_toLen (by omega)
  have hmax := (s.build frame).mode_lengths
  refine ⟨⟨Memory.wf_ofBytes ?_, hs.rxb_wf⟩, ?_⟩
  · simp only [Config.bufSize]
    omega
  · omega

theorem State.requestFrame_length_le (s : State) (slave function : Byte) (addr count : Half) :
    (s.requestFrame slave function addr count).length ≤ 12 := by
  have hbody : (requestBody (fclass function) slave function addr count).length ≤ 6 := by
    unfold requestBody
    split <;> simp [beBytes]
  unfold State.requestFrame
  split
  · omega
  · rw [List.length_append]
    simp only [mbapStart, List.length_cons, List.length_nil]
    omega

theorem State.responseHeader_length_le {s : State} {f : Byte} {frame : List Byte}
    (h : s.responseHeader f = some frame) : frame.length ≤ 8 := by
  unfold State.responseHeader at h
  split at h <;> split at h <;> cases h <;> simp [mbapStart]

/-- FINAL's two writes inside the buffer keep the canonical form. -/
theorem Memory.wf_write_write {m : List Host.Cell} {i j : Nat} (x y : Byte) (hi : i < 260) (hj : j < 260)
    (hm : Memory.wf m = true) : Memory.wf (Memory.write (Memory.write m i x) j y) = true :=
  Memory.wf_write y hj (Memory.wf_write x hi hm)

/-- In RTU mode FINAL makes room for the two bytes of the checksum (41_frame_encode R146). -/
theorem State.appendCrc_buffersFit {s : State} {r : Half} (hs : s.BuffersFit) (hm : s.mode = .rtu)
    (hl : s.txLen.toNat + s.ck ≤ s.maxAdu) : (s.appendCrc r).BuffersFit := by
  obtain ⟨-, -, hck, hmax, -⟩ | ⟨htcp, -⟩ := s.mode_lengths
  · have hlen : (s.appendCrc r).txLen.toNat = s.txLen.toNat + 2 := toNat_toLen (by omega)
    refine ⟨⟨Memory.wf_write_write _ _ (by omega) (by omega) hs.txb_wf, hs.rxb_wf⟩, ?_⟩
    rw [hlen]
    exact hck ▸ hl
  · exact absurd (hm.symm.trans htcp) (by decide)

theorem State.fillLength_buffersFit {s : State} (hs : s.BuffersFit) : s.fillLength.BuffersFit :=
  ⟨⟨Memory.wf_write_write _ _ (by decide) (by decide) hs.txb_wf, hs.rxb_wf⟩, hs.txLen_le⟩

/-- PUSHB appends below the mode's maximum (44_buffer_config R234). -/
theorem execPushb_buffersFit {s t : State} {byte : Byte} (hs : s.BuffersFit) (h : execPushb byte s = .next t) :
    t.BuffersFit := by
  rcases execPushb_eq_next h with hr | ⟨-, hl, rfl⟩
  · exact hr.buffersFit hs
  · have hmax := s.mode_lengths
    have hlen : (toLen (s.txLen.toNat + 1)).toNat = s.txLen.toNat + 1 := toNat_toLen (by omega)
    refine ⟨⟨Memory.wf_write _ (by rw [Config.bufSize]; omega) hs.txb_wf, hs.rxb_wf⟩, ?_⟩
    change (toLen (s.txLen.toNat + 1)).toNat ≤ s.maxAdu
    omega

theorem exec_host_buffersFit {i : Instr} {s t : State} (hp : i.port = .host) (hs : s.BuffersFit)
    (h : exec i s = .next t) : t.BuffersFit := by
  cases i with
  | nop => exact execNop_eq_next h ▸ hs
  | txclr => exact execTxclr_eq_next h ▸ ⟨⟨Memory.wf_nil, hs.rxb_wf⟩, Nat.zero_le _⟩
  | cfgw reg value =>
    exact (execCfgw_eq_next h).elim (·.buffersFit hs) fun ⟨_, target, _, ht⟩ =>
      ht ▸ State.configure_buffersFit hs value target
  | cfgr reg => exact buffersFit_of_setR0 hs (execCfgr_eq_next h)
  | crc16 b len => exact buffersFit_of_setR0 hs (execCrc16_eq_next h)
  | crcv b len => exact buffersFit_of_setR0 hs (execCrcv_eq_next h)
  | pushb byte => exact execPushb_buffersFit hs h
  | ldb b idx => exact buffersFit_of_setR0 hs (execLdb_eq_next h)
  | bldreq slave f addr count =>
    exact (execBldreq_eq_next h).elim (·.buffersFit hs) fun ht =>
      ht ▸ (State.build_buffersFit hs (s.requestFrame_length_le slave f addr count) :)
  | bldrsp f =>
    rcases execBldrsp_eq_next h with hr | ⟨-, frame, hf, rfl⟩
    · exact hr.buffersFit hs
    · have hl := State.responseHeader_length_le hf
      exact (State.build_buffersFit hs (by omega : frame.length ≤ 12) :)
  | bldexc code =>
    rcases execBldexc_eq_next h with hr | ⟨-, f, frame, hf, rfl⟩
    · exact hr.buffersFit hs
    · have hl := State.responseHeader_length_le hf
      exact (State.build_buffersFit hs (by simp; omega : (frame ++ [code]).length ≤ 12) :)
  | final =>
    rcases execFinal_eq_next h with hr | ⟨-, -, hl, ⟨hm, r, rfl⟩ | ⟨-, rfl⟩⟩
    · exact hr.buffersFit hs
    · exact State.appendCrc_buffersFit hs hm hl
    · exact State.fillLength_buffersFit hs
  | predict w => exact (execPredict_eq_next h).elim (·.buffersFit hs) fun ⟨_, ht⟩ => ht ▸ hs
  | decreq b => exact (execDecreq_eq_next h).elim (·.buffersFit hs) fun ⟨_, ht⟩ => ht ▸ hs
  | decrsp => exact (execDecrsp_eq_next h).elim (·.buffersFit hs) fun ⟨_, ht⟩ => ht ▸ hs
  | chkqty w => exact (execChkqty_eq_next h).elim (·.buffersFit hs) fun ⟨_, _, _, ht⟩ => ht ▸ hs
  | unpack w idx => exact buffersFit_of_setR0 hs (execUnpack_eq_next h)
  | rxfix e =>
    rcases execRxfix_eq_next h with hr | ⟨-, rfl⟩ | ⟨-, -, -, rfl⟩
    · exact hr.buffersFit hs
    · exact ⟨⟨hs.txb_wf, Memory.wf_nil⟩, hs.txLen_le⟩
    · exact ⟨⟨hs.txb_wf, Memory.wf_nil⟩, hs.txLen_le⟩
  | rxund =>
    exact (execRxund_eq_next h).elim (·.buffersFit hs) fun ⟨_, ht⟩ => ht ▸ ⟨⟨hs.txb_wf, Memory.wf_nil⟩, hs.txLen_le⟩
  | _ => nomatch hp

/-! The receiver's procedures leave RXB as it is or, where they discard the frame, empty (43_receiver R209). -/

/-- RXB is what it was, or is empty. -/
def KeepsOrEmptiesRxb (s t : State) : Prop := t.rxb = s.rxb ∨ t.rxb = []

theorem KeepsOrEmptiesRxb.wf {s t : State} (h : KeepsOrEmptiesRxb s t) (hs : Memory.wf s.rxb = true) :
    Memory.wf t.rxb = true := by
  rcases h with h | h
  · rwa [h]
  · rw [h, Memory.wf_nil]

theorem State.rxFault_keepsOrEmptiesRxb (s : State) (c : Status) : KeepsOrEmptiesRxb s (s.rxFault c) := by
  rw [KeepsOrEmptiesRxb, State.rxFault_rxb]
  split
  · exact .inr rfl
  · exact .inl rfl

theorem State.finish_keepsOrEmptiesRxb {s t : State} (h : s.finish = .next t) : KeepsOrEmptiesRxb s t := by
  rcases State.finish_eq_next h with ⟨f, -, -, rfl⟩ | ⟨-, rfl⟩
  · exact .inl rfl
  · exact s.rxFault_keepsOrEmptiesRxb _

theorem State.timeout_keepsOrEmptiesRxb {s t : State} (h : s.timeout = .next t) : KeepsOrEmptiesRxb s t := by
  rcases State.timeout_eq_next h with rfl | ⟨-, -, ⟨-, rfl⟩ | ⟨f, -, -, -, rfl⟩⟩
  · exact s.rxFault_keepsOrEmptiesRxb _
  · exact s.rxFault_keepsOrEmptiesRxb _
  · exact .inl rfl

theorem State.lengthKnown_keepsOrEmptiesRxb {s t : State} {p : Nat} (h : s.lengthKnown p = .next t) :
    KeepsOrEmptiesRxb s t := by
  unfold State.lengthKnown at h
  split at h
  · cases h
    exact State.rxFault_keepsOrEmptiesRxb _ _
  · split at h
    · cases h
      exact .inl rfl
    · exact (State.finish_keepsOrEmptiesRxb h :)

theorem State.advanceRemainder_keepsOrEmptiesRxb {s t : State} (h : s.advanceRemainder = .next t) :
    KeepsOrEmptiesRxb s t := by
  unfold State.advanceRemainder at h
  split at h
  · exact State.finish_keepsOrEmptiesRxb h
  · obtain ⟨f, -, h⟩ := withRead_eq_next h
    obtain ⟨x, -, h⟩ := withRead_eq_next h
    exact State.lengthKnown_keepsOrEmptiesRxb h

theorem State.advance_keepsOrEmptiesRxb {s t : State} (h : s.advance = .next t) : KeepsOrEmptiesRxb s t := by
  unfold State.advance at h
  split at h
  · obtain ⟨f, -, h⟩ := withRead_eq_next h
    split at h
    · cases h
      exact .inl rfl
    · exact (State.advanceRemainder_keepsOrEmptiesRxb h :)
  · exact State.advanceRemainder_keepsOrEmptiesRxb h

/-- A byte is stored inside the 260 bytes, and what follows keeps the buffer or empties it (20_memory R73). -/
theorem takeByte_rxb_wf {s t : State} {d : Byte} (hs : Memory.wf s.rxb = true) (h : takeByte d s = .next t) :
    Memory.wf t.rxb = true := by
  obtain ⟨-, hl, h⟩ := takeByte_eq_next h
  have hstore : Memory.wf (s.storeByte d).rxb = true := Memory.wf_write d hl hs
  rcases h with ⟨-, h⟩ | ⟨-, rfl⟩
  · exact (State.advance_keepsOrEmptiesRxb h).wf hstore
  · exact hstore

theorem execTick_keepsOrEmptiesRxb {s t : State} (h : execTick s = .next t) : KeepsOrEmptiesRxb s t := by
  unfold execTick at h
  split at h
  · cases h
    exact .inl rfl
  · split at h
    · cases h
      exact .inl rfl
    · exact State.timeout_keepsOrEmptiesRxb h

theorem exec_event_rxb_wf {i : Instr} {s t : State} (hp : i.port = .transport ∨ i.port = .time)
    (hs : Memory.wf s.rxb = true) (h : exec i s = .next t) : Memory.wf t.rxb = true := by
  cases hb : brings i with
  | some d => exact takeByte_rxb_wf hs ((exec_of_brings hb s).symm.trans h)
  | none =>
    cases i with
    | evClosed =>
      obtain ⟨-, h⟩ := eq_next_of_enabled h
      cases h
      exact (s.rxFault_keepsOrEmptiesRxb _).wf hs
    | evFail =>
      obtain ⟨-, h⟩ := eq_next_of_enabled h
      cases h
      exact (s.rxFault_keepsOrEmptiesRxb _).wf hs
    | evIntr =>
      obtain ⟨-, h⟩ := eq_next_of_enabled h
      cases h
      exact hs
    | tick => exact (execTick_keepsOrEmptiesRxb h).wf hs
    | _ => simp [Instr.port, brings] at hp hb

/-- An event leaves the mode and TXB alone, so RXB is the one buffer to look at. -/
theorem exec_event_buffersFit {i : Instr} {s t : State} (hp : i.port = .transport ∨ i.port = .time)
    (hs : s.BuffersFit) (h : exec i s = .next t) : t.BuffersFit := by
  obtain ⟨-, -, ⟨hmode, -⟩, ⟨-, htxb, htxLen, -⟩, -⟩ := exec_event_onlyRx hp h
  refine ⟨⟨htxb ▸ hs.txb_wf, exec_event_rxb_wf hp hs.rxb_wf h⟩, ?_⟩
  rw [State.maxAdu, hmode, htxLen]
  exact hs.txLen_le

theorem exec_buffersFit {i : Instr} {s t : State} (hs : s.BuffersFit) (h : exec i s = .next t) : t.BuffersFit := by
  cases hp : i.port with
  | host => exact exec_host_buffersFit hp hs h
  | transport => exact exec_event_buffersFit (.inl hp) hs h
  | time => exact exec_event_buffersFit (.inr hp) hs h
  | reset =>
    obtain rfl := Instr.eq_reset_of_port hp
    cases h
    exact ⟨reset_buffersWf, Nat.zero_le _⟩

/-- Settles O48: the instruction runs in a state with the same buffers, and keeps them by its port's lemma; a malformed
word changes `sta` alone. -/
theorem stepKeepsBuffersCanonical : Obligations.StepKeepsBuffersCanonical := by
  intro s t hwf hlen h
  obtain ⟨p, u, hn, h⟩ := step_eq_next h
  have hu : u.BuffersFit := by
    rw [State.nextEvent_block hn]
    exact ⟨hwf, hlen⟩
  rcases h with ⟨i, -, h⟩ | ⟨-, rfl⟩
  · exact exec_buffersFit hu h
  · exact hu

/-! ## The commands on TXB do not look at the receiver -/

section
variable (s : State)

theorem execLdb_txb (idx : Half) :
    execLdb 0#8 idx s =
      if s.vlen .txb ≤ idx.toNat then refuse .range s
      else withRead (s.byteAt .txb idx.toNat) fun v => finishCommand .ok (s.setR0 (v.setWidth 32)) := by
  simp [execLdb, bufferOf]

theorem execCrc16_txb (len : Half) :
    execCrc16 0#8 len s =
      if s.vlen .txb < len.toNat then refuse .range s
      else withRead (s.bytesAt .txb 0 len.toNat) fun bs => finishCommand .ok (s.setR0 ((crc16 bs).setWidth 32)) := by
  simp [execCrc16, bufferOf]

theorem execCrcv_txb (len : Half) :
    execCrcv 0#8 len s =
      if len.toNat < 2 ∨ s.vlen .txb < len.toNat then refuse .range s
      else
        withRead (s.crcOk .txb len.toNat) fun good =>
          if good = true then finishCommand .ok (s.setR0 (len.setWidth 32)) else finishCommand .invalidCrc s := by
  simp [execCrcv, bufferOf]

theorem execDecreq_txb :
    execDecreq 0#8 s =
      if s.bodyLen .txb < s.h + 1 then refuse .invalidData s
      else
        withRead (s.byteAt .txb s.h) fun f =>
          if s.bodyLen .txb < s.h + requestNeed (fclass f) then refuse .invalidData s
          else withRead (s.requestFields .txb f) fun d => finishCommand .ok (s.deliver d) := by
  simp [execDecreq, bufferOf]

end

/-- `s` with the receiver's side, and what the environment has yet to deliver, of another state. -/
def State.withReceiverOf (s r : State) : State :=
  { s with
    rxb := r.rxb
    rxLen := r.rxLen
    rxState := r.rxState
    rxResult := r.rxResult
    rxKind := r.rxKind
    rxKnown := r.rxKnown
    rxNeed := r.rxNeed
    rxTotal := r.rxTotal
    rxTimer := r.rxTimer
    rxReload := r.rxReload
    inbox := r.inbox
    later := r.later }

/-- A state that agrees with `s` but for the receiver's side is `s` with that receiver's side. -/
theorem State.eq_withReceiverOf {s s' : State} (hr : SameResults s s') (hsta : s'.sta = s.sta) (hc : SameConfig s s')
    (ht : SameTx s s') : s' = s.withReceiverOf s' := by
  obtain ⟨h0, h1, h2, h3, h4, h5, h6, h7⟩ := hr
  obtain ⟨hmode, hFirst, hEof, hResp⟩ := hc
  obtain ⟨htid, htxb, htxLen, htxFinal⟩ := ht
  cases s'
  simp_all [State.withReceiverOf]

/-- Change the next state of an answer, if it is one. -/
def mapNext (f : State → State) : Result → Result
  | .next t => .next (f t)
  | .fault e => .fault e
  | .refused e => .refused e

theorem mapNext_withRead {α : Type} (f : State → State) (o : Option α) (k : α → Result) :
    mapNext f (withRead o k) = withRead o fun a => mapNext f (k a) := by
  cases o <;> rfl

/-- The meaning neither looks at the receiver's side nor touches it: to exchange that side before or after is one. -/
def IgnoresReceiver (f : State → Result) : Prop :=
  ∀ s r : State, f (s.withReceiverOf r) = mapNext (·.withReceiverOf r) (f s)

theorem execNop_ignoresReceiver : IgnoresReceiver execNop := fun _ _ => rfl

theorem execTxclr_ignoresReceiver : IgnoresReceiver execTxclr := fun _ _ => rfl

theorem execPushb_ignoresReceiver (b : Byte) : IgnoresReceiver (execPushb b) := by
  intro s r
  simp only [execPushb, apply_ite (mapNext _)]
  rfl

theorem execBldreq_ignoresReceiver (slave f : Byte) (addr count : Half) :
    IgnoresReceiver (execBldreq slave f addr count) := by
  intro s r
  simp only [execBldreq, apply_ite (mapNext _)]
  rfl

theorem execFinal_ignoresReceiver : IgnoresReceiver execFinal := by
  intro s r
  have hm : (s.withReceiverOf r).mode = s.mode := rfl
  cases h : s.mode <;> simp only [execFinal, hm, h, apply_ite (mapNext _), mapNext_withRead] <;> rfl

theorem execPredict_ignoresReceiver (w : Byte) : IgnoresReceiver (execPredict w) := by
  intro s r
  cases h : widthOf w <;> simp only [execPredict, h, apply_ite (mapNext _), mapNext_withRead] <;> rfl

theorem execLdb_txb_ignoresReceiver (idx : Half) : IgnoresReceiver (execLdb 0#8 idx) := by
  intro s r
  simp only [execLdb_txb, apply_ite (mapNext _), mapNext_withRead]
  rfl

theorem execCrc16_txb_ignoresReceiver (len : Half) : IgnoresReceiver (execCrc16 0#8 len) := by
  intro s r
  simp only [execCrc16_txb, apply_ite (mapNext _), mapNext_withRead]
  rfl

theorem execCrcv_txb_ignoresReceiver (len : Half) : IgnoresReceiver (execCrcv 0#8 len) := by
  intro s r
  simp only [execCrcv_txb, apply_ite (mapNext _), mapNext_withRead]
  rfl

theorem execDecreq_txb_ignoresReceiver : IgnoresReceiver (execDecreq 0#8) := by
  intro s r
  simp only [execDecreq_txb, apply_ite (mapNext _), mapNext_withRead]
  rfl

/-- Settles O57: the second state is the first with another receiver's side, and the meaning commutes with that
exchange. -/
theorem outboundCommandsIgnoreTheReceiver : Obligations.OutboundCommandsIgnoreTheReceiver := by
  intro i s s' t hi hr hsta hc ht h
  have hign : IgnoresReceiver (exec i) := by
    rcases hi with rfl | rfl | ⟨b, rfl⟩ | ⟨slave, f, addr, count, rfl⟩ | rfl | ⟨w, rfl⟩ | ⟨idx, rfl⟩ | ⟨len, rfl⟩ |
      ⟨len, rfl⟩ | rfl
    · exact execNop_ignoresReceiver
    · exact execTxclr_ignoresReceiver
    · exact execPushb_ignoresReceiver b
    · exact execBldreq_ignoresReceiver slave f addr count
    · exact execFinal_ignoresReceiver
    · exact execPredict_ignoresReceiver w
    · exact execLdb_txb_ignoresReceiver idx
    · exact execCrc16_txb_ignoresReceiver len
    · exact execCrcv_txb_ignoresReceiver len
    · exact execDecreq_txb_ignoresReceiver
  refine ⟨t.withReceiverOf s', ?_, ⟨rfl, rfl, rfl, rfl, rfl, rfl, rfl, rfl⟩, rfl, ⟨rfl, rfl, rfl, rfl⟩,
    rfl, rfl, rfl, rfl⟩
  calc exec i s' = exec i (s.withReceiverOf s') := by rw [← State.eq_withReceiverOf hr hsta hc ht]
    _ = mapNext (·.withReceiverOf s') (exec i s) := hign s s'
    _ = .next (t.withReceiverOf s') := by rw [h]; rfl

/-! ## While receiving -/

/-- The command completes, and not with BUSY. -/
def RunsNotBusy (r : Result) : Prop := ∃ t, r = .next t ∧ t.sta ≠ .busy

theorem runsNotBusy_finishCommand (s : State) {c : Status} (hc : c ≠ .busy) : RunsNotBusy (finishCommand c s) :=
  ⟨_, rfl, hc⟩

theorem runsNotBusy_refuse (s : State) {c : Status} (hc : c ≠ .busy) : RunsNotBusy (refuse c s) := ⟨_, rfl, hc⟩

theorem runsNotBusy_withRead {α : Type} {o : Option α} {k : α → Result} {a : α} (ho : o = some a)
    (hk : RunsNotBusy (k a)) : RunsNotBusy (withRead o k) := by
  rwa [ho, withRead_some]

theorem execPushb_runsNotBusy (s : State) (b : Byte) : RunsNotBusy (execPushb b s) := by
  unfold execPushb
  split
  · exact runsNotBusy_refuse s (by decide)
  · split
    · exact runsNotBusy_refuse s (by decide)
    · exact runsNotBusy_finishCommand _ (by decide)

theorem execBldreq_runsNotBusy (s : State) (slave f : Byte) (addr count : Half) :
    RunsNotBusy (execBldreq slave f addr count s) := by
  unfold execBldreq
  split
  · exact runsNotBusy_refuse s (by decide)
  · exact runsNotBusy_finishCommand _ (by decide)

theorem execCfgr_runsNotBusy (s : State) (reg : Byte) : RunsNotBusy (execCfgr reg s) := by
  unfold execCfgr
  split
  · exact runsNotBusy_refuse s (by decide)
  · exact runsNotBusy_finishCommand _ (by decide)

/-! The commands that read TXB: each read stands behind a test that puts it inside the valid bytes. -/

section
variable {s : State} {bs : List Byte}

theorem State.Holds.bodyLen_le {b : Buffer} (h : s.Holds b bs) : s.bodyLen b ≤ bs.length :=
  h.bodyLen ▸ s.bodyOf_le bs b

theorem State.Holds.execFinal_runsNotBusy (h : s.Holds .txb bs) : RunsNotBusy (execFinal s) := by
  have hlen : s.txLen.toNat = bs.length := h.length
  unfold execFinal
  split
  · exact runsNotBusy_refuse s (by decide)
  · split
    · exact runsNotBusy_refuse s (by decide)
    · split
      · exact runsNotBusy_withRead (h.bytesAt (by omega)) (runsNotBusy_finishCommand _ (by decide))
      · exact runsNotBusy_finishCommand _ (by decide)

theorem State.Holds.execPredict_runsNotBusy (h : s.Holds .txb bs) (w : Byte) : RunsNotBusy (execPredict w s) := by
  have hbody := h.bodyLen_le
  unfold execPredict
  split
  · exact runsNotBusy_refuse s (by decide)
  · split
    · exact runsNotBusy_refuse s (by decide)
    · refine runsNotBusy_withRead (h.byteAt_getD (by omega)) ?_
      split
      · exact runsNotBusy_refuse s (by decide)
      · split
        · exact runsNotBusy_refuse s (by decide)
        · split
          · split
            · exact runsNotBusy_refuse s (by decide)
            · exact runsNotBusy_withRead (h.be16At (by omega)) (runsNotBusy_finishCommand _ (by decide))
          · exact runsNotBusy_finishCommand _ (by decide)

theorem State.Holds.execLdb_txb_runsNotBusy (h : s.Holds .txb bs) (idx : Half) : RunsNotBusy (execLdb 0#8 idx s) := by
  rw [execLdb_txb, h.length]
  split
  · exact runsNotBusy_refuse s (by decide)
  · exact runsNotBusy_withRead (h.byteAt_getD (by omega)) (runsNotBusy_finishCommand _ (by decide))

theorem State.Holds.execCrc16_txb_runsNotBusy (h : s.Holds .txb bs) (len : Half) :
    RunsNotBusy (execCrc16 0#8 len s) := by
  rw [execCrc16_txb, h.length]
  split
  · exact runsNotBusy_refuse s (by decide)
  · exact runsNotBusy_withRead (h.bytesAt (by omega)) (runsNotBusy_finishCommand _ (by decide))

theorem State.Holds.execCrcv_txb_runsNotBusy (h : s.Holds .txb bs) (len : Half) :
    RunsNotBusy (execCrcv 0#8 len s) := by
  rw [execCrcv_txb, h.length]
  split
  · exact runsNotBusy_refuse s (by decide)
  · refine runsNotBusy_withRead (h.crcOk (by omega) (by omega)) ?_
    split <;> exact runsNotBusy_finishCommand _ (by decide)

/-- Address and count have values where the frame has the bytes DECREQ needs (42_predict_decode R163). -/
theorem State.Holds.exists_addressFields {b : Buffer} (h : s.Holds b bs) {need : Nat} (hl : s.h + need ≤ bs.length) :
    ∃ a n, s.addressFields b need = some (a, n) := by
  unfold State.addressFields
  split
  · rw [h.be16At (by omega), h.be16At (by omega)]
    exact ⟨_, _, rfl⟩
  · exact ⟨_, _, rfl⟩

theorem State.Holds.exists_byteCountField {b : Buffer} (h : s.Holds b bs) {need : Nat}
    (hl : s.h + need ≤ bs.length) : ∃ c, s.byteCountField b need = some c := by
  unfold State.byteCountField
  split
  · rw [h.byteAt_getD (by omega)]
    exact ⟨_, rfl⟩
  · exact ⟨_, rfl⟩

theorem State.Holds.exists_mbapFields {b : Buffer} (h : s.Holds b bs) (hl : s.h ≤ bs.length) :
    ∃ t l, s.mbapFields b = some (t, l) := by
  obtain ⟨hm, -⟩ | ⟨hm, hh, -⟩ := s.mode_lengths
  · exact ⟨0#32, 0#32, by rw [State.mbapFields, hm]⟩
  · rw [State.mbapFields, hm, h.be16At (by omega), h.be16At (by omega)]
    exact ⟨_, _, rfl⟩

theorem State.Holds.exists_requestFields {b : Buffer} (h : s.Holds b bs) {f : Byte}
    (hl : s.h + requestNeed (fclass f) ≤ bs.length) (h1 : s.h + 1 ≤ bs.length) :
    ∃ d, s.requestFields b f = some d := by
  obtain ⟨a, n, ha⟩ := h.exists_addressFields hl
  obtain ⟨c, hc⟩ := h.exists_byteCountField hl
  obtain ⟨t, l, ht⟩ := h.exists_mbapFields (by omega)
  rw [State.requestFields, h.byteAt_getD (by omega), ha, hc, ht]
  exact ⟨_, rfl⟩

theorem State.Holds.execDecreq_txb_runsNotBusy (h : s.Holds .txb bs) : RunsNotBusy (execDecreq 0#8 s) := by
  have hbody := h.bodyLen_le
  rw [execDecreq_txb]
  split
  · exact runsNotBusy_refuse s (by decide)
  · refine runsNotBusy_withRead (h.byteAt_getD (by omega)) ?_
    split
    · exact runsNotBusy_refuse s (by decide)
    · obtain ⟨d, hd⟩ := h.exists_requestFields (f := bs.getD s.h 0#8) (by omega) (by omega)
      exact runsNotBusy_withRead hd (runsNotBusy_finishCommand _ (by decide))

end

section
variable {s : State} (hr : s.receiving = true)
include hr

/-- A legal width code does not come before BUSY (60_exceptions R256). -/
theorem execChkqty_busy {w : Byte} (hw : legalWidth w = true) : execChkqty w s = refuse .busy s := by
  obtain ⟨width, hw⟩ := Option.isSome_iff_exists.mp ((widthOf_isSome w).trans hw)
  simp only [execChkqty, hw, hr, if_true]

theorem execUnpack_busy {w : Byte} (idx : Half) (hw : legalWidth w = true) : execUnpack w idx s = refuse .busy s := by
  obtain ⟨width, hw⟩ := Option.isSome_iff_exists.mp ((widthOf_isSome w).trans hw)
  simp only [execUnpack, hw, hr, if_true]

theorem execCfgw_busy {reg : Byte} {value : Word} (hw : legalWrite reg value = true) :
    execCfgw reg value s = refuse .busy s := by
  obtain ⟨target, ht⟩ := Option.isSome_iff_exists.mp ((cfgRegOf_isSome reg value).trans hw)
  simp only [execCfgw, ht, hr, if_true]

theorem execLdb_rxb_busy (idx : Half) : execLdb 1#8 idx s = refuse .busy s := by simp [execLdb, bufferOf, hr]

theorem execCrc16_rxb_busy (len : Half) : execCrc16 1#8 len s = refuse .busy s := by simp [execCrc16, bufferOf, hr]

theorem execCrcv_rxb_busy (len : Half) : execCrcv 1#8 len s = refuse .busy s := by simp [execCrcv, bufferOf, hr]

theorem execDecreq_rxb_busy : execDecreq 1#8 s = refuse .busy s := by simp [execDecreq, bufferOf, hr]

end

/-- Settles O56: on the first commands the test for BUSY is the first that a well-formed operand leaves; the others
have no such test, and find in TXB every byte they read. -/
theorem receivingCommandsAreBusy : Obligations.ReceivingCommandsAreBusy := by
  constructor
  · intro i s hr hwf hi
    change exec i s = refuse .busy s
    rcases hi with ⟨idx, rfl⟩ | ⟨len, rfl⟩ | ⟨len, rfl⟩ | rfl | rfl | ⟨w, rfl⟩ | ⟨w, idx, rfl⟩ | ⟨f, rfl⟩ | ⟨c, rfl⟩ |
      ⟨e, rfl⟩ | rfl | ⟨reg, value, rfl⟩
    · exact execLdb_rxb_busy hr idx
    · exact execCrc16_rxb_busy hr len
    · exact execCrcv_rxb_busy hr len
    · exact execDecreq_rxb_busy hr
    · exact if_pos hr
    · exact execChkqty_busy hr hwf
    · exact execUnpack_busy hr idx hwf
    · exact if_pos hr
    · exact if_pos hr
    · exact if_pos hr
    · exact if_pos hr
    · exact execCfgw_busy hr hwf
  · intro i s bs _ h hi
    change RunsNotBusy (exec i s)
    rcases hi with rfl | rfl | ⟨b, rfl⟩ | ⟨slave, f, addr, count, rfl⟩ | rfl | ⟨w, rfl⟩ | ⟨idx, rfl⟩ | ⟨len, rfl⟩ |
      ⟨len, rfl⟩ | rfl | ⟨reg, rfl⟩
    · exact runsNotBusy_finishCommand _ (by decide)
    · exact runsNotBusy_finishCommand _ (by decide)
    · exact execPushb_runsNotBusy s b
    · exact execBldreq_runsNotBusy s slave f addr count
    · exact h.execFinal_runsNotBusy
    · exact h.execPredict_runsNotBusy w
    · exact h.execLdb_txb_runsNotBusy idx
    · exact h.execCrc16_txb_runsNotBusy len
    · exact h.execCrcv_txb_runsNotBusy len
    · exact h.execDecreq_txb_runsNotBusy
    · exact execCfgr_runsNotBusy s reg

end Sys2Proof.Machine
end

section
/-!
PROOFS. The family 30_encoding: decode and encode undo each other (R95 to R97, R101, R83), a command word decodes
exactly when it is one of the opcode table's, and every other word, like every reserved operand, is ILLEGAL_CMD (R98).
-/

namespace Sys2Proof.Machine

/-! ## From instructions to words and back -/

/-- The step from the fields an instruction is written in to its decoding, for any row of the opcode map. -/
theorem decode_commandWord {op f1 f2 : Byte} {w1 w2 : Half} {fmt : Format} {i : Instr}
    (hm : opcodeMap ⟨op, f1, f2, w1, w2, 0#8⟩ = some (fmt, i))
    (hu : unusedZero fmt ⟨op, f1, f2, w1, w2, 0#8⟩ = true) (hw : i.wellFormed = true) :
    decode (commandWord op f1 f2 w1 w2) = .ok i :=
  decodeCommand_wordOf hm rfl hu hw

theorem decodeTransport_byte (data : Byte) : decodeTransport (0#2 ++ data) = .evByte data := by
  rw [decodeTransport, BitVec.extractLsb'_append_eq_left, BitVec.extractLsb'_append_eq_right, if_pos rfl]

/-- Bit 7 is tested before the ten codes, so every byte that has it is an exception (30_encoding R83, R88). -/
theorem decodeFunctionByte_exception (f : BitVec 7) : decodeFunctionByte (1#1 ++ f) = .fcException f := by
  rw [decodeFunctionByte, BitVec.extractLsb'_append_eq_left, BitVec.extractLsb'_append_eq_right, if_pos rfl]

theorem decode_encode {i : Instr} (hw : i.wellFormed = true) : decode (encode i) = .ok i := by
  cases i with
  | nop => exact decode_commandWord rfl rfl hw
  | cfgw reg value =>
    exact decode_commandWord (congrArg (fun v => some (Format.fmtC, Instr.cfgw reg v)) (operand_append value)) rfl hw
  | cfgr reg => exact decode_commandWord rfl rfl hw
  | crc16 b len => exact decode_commandWord rfl rfl hw
  | crcv b len => exact decode_commandWord rfl rfl hw
  | txclr => exact decode_commandWord rfl rfl hw
  | pushb byte => exact decode_commandWord rfl rfl hw
  | ldb b idx => exact decode_commandWord rfl rfl hw
  | bldreq slave function addr count => exact decode_commandWord rfl rfl hw
  | bldrsp function => exact decode_commandWord rfl rfl hw
  | bldexc code => exact decode_commandWord rfl rfl hw
  | final => exact decode_commandWord rfl rfl hw
  | predict w => exact decode_commandWord rfl rfl hw
  | decreq b => exact decode_commandWord rfl rfl hw
  | decrsp => exact decode_commandWord rfl rfl hw
  | chkqty w => exact decode_commandWord rfl rfl hw
  | unpack w idx => exact decode_commandWord rfl rfl hw
  | rxfix expected =>
    exact decode_commandWord (congrArg (fun v => some (Format.fmtX, Instr.rxfix v)) (operand_append expected)) rfl hw
  | rxund => exact decode_commandWord rfl rfl hw
  | evByte data => exact congrArg Except.ok (decodeTransport_byte data)
  | fcException f => exact congrArg Except.ok (decodeFunctionByte_exception f)
  | _ => rfl

/-- Settles O1: a command by its row of the opcode map, an event by its kind, a function byte by its code. -/
theorem decodeOfEncodeIsIdentity : Obligations.DecodeOfEncodeIsIdentity := fun _ hw => decode_encode hw

/-- Settles O5: each word is, bit by bit, the encoding of its instruction. -/
theorem sampleWordsDecode : Obligations.SampleWordsDecode :=
  ⟨decode_encode (i := .cfgw 3#8 200#32) rfl, decode_encode (i := .crcv 0#8 8#16) rfl,
    decode_encode (i := .bldreq 0x11#8 0x03#8 0x006B#16 3#16) rfl, decode_encode (i := .unpack 2#8 1#16) rfl,
    decode_encode (i := .rxfix 0xFFFFFFFF#32) rfl, decode_encode (i := .evByte 0xAB#8) rfl,
    decode_encode (i := .fcException 3#7) rfl⟩

/-! ## The rows of the opcode map -/

/-- A row of the opcode map (30_encoding R97): its opcode, its format, what the opcode table asks of its operands, and
the instruction it makes of the fields. -/
structure OpcodeRow where
  op : Byte
  fmt : Format
  rule : OperandRule
  build : Fields → Instr

/-- The nineteen rows, in the order of `opcodeMap` and of `commandTable`. -/
def opcodeRows : List OpcodeRow :=
  [⟨0x00#8, .fmtN, .anyOperand, fun _ => .nop⟩,
   ⟨0x01#8, .fmtC, .configWrite, fun x => .cfgw x.f1 (x.w1 ++ x.w2)⟩,
   ⟨0x02#8, .fmtG, .configRead, fun x => .cfgr x.f1⟩,
   ⟨0x10#8, .fmtL, .bufferSelect, fun x => .crc16 x.f1 x.w1⟩,
   ⟨0x11#8, .fmtL, .bufferSelect, fun x => .crcv x.f1 x.w1⟩,
   ⟨0x20#8, .fmtN, .anyOperand, fun _ => .txclr⟩,
   ⟨0x21#8, .fmtI, .anyOperand, fun x => .pushb x.f1⟩,
   ⟨0x22#8, .fmtL, .bufferSelect, fun x => .ldb x.f1 x.w1⟩,
   ⟨0x30#8, .fmtQ, .anyOperand, fun x => .bldreq x.f1 x.f2 x.w1 x.w2⟩,
   ⟨0x31#8, .fmtF, .anyOperand, fun x => .bldrsp x.f2⟩,
   ⟨0x32#8, .fmtI, .anyOperand, fun x => .bldexc x.f1⟩,
   ⟨0x33#8, .fmtN, .anyOperand, fun _ => .final⟩,
   ⟨0x40#8, .fmtW, .widthCode, fun x => .predict x.f1⟩,
   ⟨0x41#8, .fmtS, .bufferSelect, fun x => .decreq x.f1⟩,
   ⟨0x42#8, .fmtN, .anyOperand, fun _ => .decrsp⟩,
   ⟨0x43#8, .fmtW, .widthCode, fun x => .chkqty x.f1⟩,
   ⟨0x44#8, .fmtU, .widthCode, fun x => .unpack x.f1 x.w1⟩,
   ⟨0x50#8, .fmtX, .anyOperand, fun x => .rxfix (x.w1 ++ x.w2)⟩,
   ⟨0x51#8, .fmtN, .anyOperand, fun _ => .rxund⟩]

/-- Search the rows for the opcode of the fields, the first that has it. -/
def lookupOpcode (x : Fields) : List OpcodeRow → Option (Format × Instr)
  | [] => none
  | r :: rs => if x.op = r.op then some (r.fmt, r.build x) else lookupOpcode x rs

theorem opcodeMap_eq_lookupOpcode (x : Fields) : opcodeMap x = lookupOpcode x opcodeRows := rfl

theorem exists_row_of_lookupOpcode {x : Fields} {rs : List OpcodeRow} {fmt : Format} {i : Instr}
    (h : lookupOpcode x rs = some (fmt, i)) : ∃ r ∈ rs, x.op = r.op ∧ fmt = r.fmt ∧ i = r.build x := by
  induction rs with
  | nil => cases h
  | cons r rs ih =>
    rcases ite_eq_some_cases h with ⟨hop, h⟩ | ⟨-, h⟩
    · cases h
      exact ⟨r, List.mem_cons_self, hop, rfl, rfl⟩
    · obtain ⟨r', hr', hx⟩ := ih h
      exact ⟨r', List.mem_cons_of_mem r hr', hx⟩

theorem lookupOpcode_of_mem {x : Fields} {rs : List OpcodeRow} {r : OpcodeRow} (hn : (rs.map OpcodeRow.op).Nodup)
    (hr : r ∈ rs) (hop : x.op = r.op) : lookupOpcode x rs = some (r.fmt, r.build x) := by
  induction rs with
  | nil => cases hr
  | cons r' rs ih =>
    obtain ⟨hhead, htail⟩ := List.nodup_cons.mp hn
    rcases List.mem_cons.mp hr with rfl | hr
    · exact if_pos hop
    · have hne : x.op ≠ r'.op := fun e => hhead (e ▸ hop ▸ List.mem_map_of_mem hr)
      exact (if_neg hne).trans (ih htail hr)

/-- The opcode map answers by the one row that has the opcode. -/
theorem opcodeMap_eq_some_iff {x : Fields} {fmt : Format} {i : Instr} :
    opcodeMap x = some (fmt, i) ↔ ∃ r ∈ opcodeRows, x.op = r.op ∧ fmt = r.fmt ∧ i = r.build x := by
  rw [opcodeMap_eq_lookupOpcode]
  constructor
  · exact exists_row_of_lookupOpcode
  · rintro ⟨r, hr, hop, rfl, rfl⟩
    exact lookupOpcode_of_mem (by decide) hr hop

/-- A command word decodes exactly by a row whose opcode, zeros and operands it has (30_encoding R95 to R98). -/
theorem decodeCommand_eq_ok_iff {w : BitVec 64} {i : Instr} :
    decodeCommand w = .ok i ↔ ∃ r ∈ opcodeRows, (fieldsOf w).op = r.op ∧
      (unusedZero r.fmt (fieldsOf w) = true ∧ (fieldsOf w).z = 0#8) ∧ i = r.build (fieldsOf w) ∧
      i.wellFormed = true := by
  constructor
  · intro h
    obtain ⟨fmt, hm, hz, hu, hw⟩ := decodeCommand_eq_ok h
    obtain ⟨r, hr, hop, rfl, hi⟩ := opcodeMap_eq_some_iff.mp hm
    exact ⟨r, hr, hop, ⟨hu, hz⟩, hi, hw⟩
  · rintro ⟨r, hr, hop, ⟨hu, hz⟩, hi, hw⟩
    rw [← wordOf_fieldsOf w]
    exact decodeCommand_wordOf (opcodeMap_eq_some_iff.mpr ⟨r, hr, hop, rfl, hi⟩) hz hu hw

/-! ## From words to instructions and back -/

/-- Row by row: the instruction is encoded with the opcode, the fields it was made of, and zeros where the format has
them. -/
theorem encode_build (x : Fields) :
    ∀ r ∈ opcodeRows, x.op = r.op → unusedZero r.fmt x = true → x.z = 0#8 →
      encode (r.build x) = .command (wordOf x) := by
  obtain ⟨op, f1, f2, w1, w2, z⟩ := x
  simp +contextual [opcodeRows, unusedZero, encode, commandWord, operandHi_append, operandLo_append]

theorem wellFormed_of_decodeCommand {w : BitVec 64} {i : Instr} (h : decodeCommand w = .ok i) :
    i.wellFormed = true := by
  obtain ⟨-, -, -, -, -, hw⟩ := decodeCommand_eq_ok_iff.mp h
  exact hw

theorem encode_of_decodeCommand {w : BitVec 64} {i : Instr} (h : decodeCommand w = .ok i) : encode i = .command w := by
  obtain ⟨r, hr, hop, ⟨hu, hz⟩, rfl, -⟩ := decodeCommand_eq_ok_iff.mp h
  rw [encode_build _ r hr hop hu hz, wordOf_fieldsOf]

/-- Settles O2: the encoding puts back the fields of the row, and the zeros the word was tested for. -/
theorem encodeOfDecodeIsIdentity : Obligations.EncodeOfDecodeIsIdentity := fun _ _ h =>
  ⟨wellFormed_of_decodeCommand h, encode_of_decodeCommand h⟩

/-! ## The masks and operand rules of the opcode table -/

/-- The bits a row of the format tests: the opcode, `z`, and the fields the format marks 0 (30_encoding R95, R96). -/
def testedBits : Format → Fields
  | .fmtN => ⟨0xFF#8, 0xFF#8, 0xFF#8, 0xFFFF#16, 0xFFFF#16, 0xFF#8⟩
  | .fmtC => ⟨0xFF#8, 0#8, 0xFF#8, 0#16, 0#16, 0xFF#8⟩
  | .fmtG => ⟨0xFF#8, 0#8, 0xFF#8, 0xFFFF#16, 0xFFFF#16, 0xFF#8⟩
  | .fmtL => ⟨0xFF#8, 0#8, 0xFF#8, 0#16, 0xFFFF#16, 0xFF#8⟩
  | .fmtS => ⟨0xFF#8, 0#8, 0xFF#8, 0xFFFF#16, 0xFFFF#16, 0xFF#8⟩
  | .fmtI => ⟨0xFF#8, 0#8, 0xFF#8, 0xFFFF#16, 0xFFFF#16, 0xFF#8⟩
  | .fmtQ => ⟨0xFF#8, 0#8, 0#8, 0#16, 0#16, 0xFF#8⟩
  | .fmtF => ⟨0xFF#8, 0xFF#8, 0#8, 0xFFFF#16, 0xFFFF#16, 0xFF#8⟩
  | .fmtW => ⟨0xFF#8, 0#8, 0xFF#8, 0xFFFF#16, 0xFFFF#16, 0xFF#8⟩
  | .fmtU => ⟨0xFF#8, 0#8, 0xFF#8, 0#16, 0xFFFF#16, 0xFF#8⟩
  | .fmtX => ⟨0xFF#8, 0xFF#8, 0xFF#8, 0#16, 0#16, 0xFF#8⟩

/-- The opcode table's row of a row of the opcode map. -/
def OpcodeRow.tableRow (r : OpcodeRow) : TableRow :=
  ⟨wordOf (testedBits r.fmt), wordOf ⟨r.op, 0#8, 0#8, 0#16, 0#16, 0#8⟩, r.rule⟩

theorem commandTable_eq : commandTable = opcodeRows.map OpcodeRow.tableRow := rfl

/-- Two words are the same when their fields are. -/
theorem eq_wordOf_iff {w : BitVec 64} {x : Fields} : w = wordOf x ↔ fieldsOf w = x :=
  ⟨fun h => h ▸ fieldsOf_wordOf x, fun h => h ▸ (wordOf_fieldsOf w).symm⟩

/-- A format's mask and a row's match ask for the opcode and the format's zeros (30_encoding R96, R98). -/
theorem and_testedBits_eq_iff (fmt : Format) (op : Byte) (w : BitVec 64) :
    w &&& wordOf (testedBits fmt) = wordOf ⟨op, 0#8, 0#8, 0#16, 0#16, 0#8⟩ ↔
      (fieldsOf w).op = op ∧ unusedZero fmt (fieldsOf w) = true ∧ (fieldsOf w).z = 0#8 := by
  have h8 (b : Byte) : b &&& 0xFF#8 = b := BitVec.and_allOnes
  have h16 (v : Half) : v &&& 0xFFFF#16 = v := BitVec.and_allOnes
  rw [eq_wordOf_iff, fieldsOf_and, fieldsOf_wordOf, Fields.mk.injEq]
  cases fmt <;> simp [testedBits, unusedZero, h8, h16, and_assoc]

/-- The two halves of the 32-bit operand are bits 39:8 of the word (30_encoding R95). -/
theorem fieldsOf_operand (w : BitVec 64) : (fieldsOf w).w1 ++ (fieldsOf w).w2 = w.extractLsb' 8 32 :=
  BitVec.extractLsb'_append_extractLsb'_eq_extractLsb' rfl

section
variable (w : BitVec 64)

theorem OperandRule.holds_bufferSelect_iff :
    OperandRule.bufferSelect.Holds w ↔ legalBuffer (fieldsOf w).f1 = true := by
  rw [legalBuffer, decide_eq_true_iff]
  rfl

theorem OperandRule.holds_widthCode_iff :
    OperandRule.widthCode.Holds w ↔ legalWidth (fieldsOf w).f1 = true := by
  rw [legalWidth, decide_eq_true_iff]
  rfl

theorem OperandRule.holds_configWrite_iff :
    OperandRule.configWrite.Holds w ↔
      legalWrite (fieldsOf w).f1 ((fieldsOf w).w1 ++ (fieldsOf w).w2) = true := by
  rw [fieldsOf_operand, legalWrite, Bool.and_eq_true, Bool.or_eq_true, decide_eq_true_iff, decide_eq_true_iff,
    decide_eq_true_iff, ← imp_iff_not_or]
  rfl

theorem OperandRule.holds_configRead_iff :
    OperandRule.configRead.Holds w ↔ legalRead (fieldsOf w).f1 = true := by
  rw [legalRead, Bool.or_eq_true, Bool.and_eq_true, decide_eq_true_iff, decide_eq_true_iff, decide_eq_true_iff]
  rfl

/-- The opcode table's operand constraint is the well-formedness of the row's instruction (30_encoding R98). -/
theorem rule_holds_iff_wellFormed :
    ∀ r ∈ opcodeRows, r.rule.Holds w ↔ (r.build (fieldsOf w)).wellFormed = true := by
  have hany : OperandRule.anyOperand.Holds w ↔ true = true := iff_of_true trivial rfl
  have hbuf := OperandRule.holds_bufferSelect_iff w
  have hwidth := OperandRule.holds_widthCode_iff w
  simp only [opcodeRows, List.forall_mem_cons]
  exact ⟨hany, OperandRule.holds_configWrite_iff w, OperandRule.holds_configRead_iff w, hbuf, hbuf, hany, hany, hbuf,
    hany, hany, hany, hany, hwidth, hbuf, hany, hwidth, hwidth, hany, hany, nofun⟩

/-- The opcode table's words are those that decode. -/
theorem legalWord_iff_decodes : LegalWord w ↔ ∃ i, decodeCommand w = .ok i := by
  rw [LegalWord, commandTable_eq]
  constructor
  · rintro ⟨row, hrow, hmask, hrule⟩
    obtain ⟨r, hr, rfl⟩ := List.mem_map.mp hrow
    obtain ⟨hop, hzero⟩ := (and_testedBits_eq_iff r.fmt r.op w).mp hmask
    exact ⟨_, decodeCommand_eq_ok_iff.mpr ⟨r, hr, hop, hzero, rfl, (rule_holds_iff_wellFormed w r hr).mp hrule⟩⟩
  · rintro ⟨i, hi⟩
    obtain ⟨r, hr, hop, hzero, rfl, hw⟩ := decodeCommand_eq_ok_iff.mp hi
    exact ⟨r.tableRow, List.mem_map_of_mem hr, (and_testedBits_eq_iff r.fmt r.op w).mpr ⟨hop, hzero⟩,
      (rule_holds_iff_wellFormed w r hr).mpr hw⟩

end

/-- A step that takes a malformed word refuses it. -/
theorem step_eq_refuse {s u : State} {p : PortWord} {e : DecodeError} (hn : s.nextEvent = some (p, u))
    (hd : decode p = .error e) : step s = refuse .illegalCmd u := by
  simp only [step, runNext, runWord, hn, hd]

/-- Settles O3: a word of the table decodes and is run; any other is rejected by the decoder and refused. -/
theorem malformedWordIsIllegalCommand : Obligations.MalformedWordIsIllegalCommand := by
  intro s u w hn
  constructor
  · intro hl
    obtain ⟨i, hi⟩ := (legalWord_iff_decodes w).mp hl
    exact ⟨i, hi, step_eq_exec hn hi⟩
  · intro hl
    cases hd : decodeCommand w with
    | ok i => exact absurd ((legalWord_iff_decodes w).mpr ⟨i, hd⟩) hl
    | error e => exact step_eq_refuse hn hd

/-! ## Reserved operands -/

theorem eq_none_of_isSome_eq {α : Type} {o : Option α} {b : Bool} (ho : o.isSome = b) (hb : b = false) : o = none :=
  Option.not_isSome_iff_eq_none.mp (by simp [ho, hb])

/-- The test for a reserved operand is the first of every command that has one (60_exceptions R256). -/
theorem exec_eq_refuse_of_not_wellFormed {i : Instr} (s : State) (h : i.wellFormed = false) :
    exec i s = refuse .illegalCmd s := by
  cases i with
  | cfgw reg value => simp only [exec, execCfgw, eq_none_of_isSome_eq (cfgRegOf_isSome reg value) h]
  | cfgr reg => simp only [exec, execCfgr, eq_none_of_isSome_eq (statusRegister_isSome s reg) h]
  | crc16 b len => simp only [exec, execCrc16, eq_none_of_isSome_eq (bufferOf_isSome b) h]
  | crcv b len => simp only [exec, execCrcv, eq_none_of_isSome_eq (bufferOf_isSome b) h]
  | ldb b idx => simp only [exec, execLdb, eq_none_of_isSome_eq (bufferOf_isSome b) h]
  | predict w => simp only [exec, execPredict, eq_none_of_isSome_eq (widthOf_isSome w) h]
  | decreq b => simp only [exec, execDecreq, eq_none_of_isSome_eq (bufferOf_isSome b) h]
  | chkqty w => simp only [exec, execChkqty, eq_none_of_isSome_eq (widthOf_isSome w) h]
  | unpack w idx => simp only [exec, execUnpack, eq_none_of_isSome_eq (widthOf_isSome w) h]
  | _ => nomatch h

/-- Settles O4: `refuse` writes `sta` alone. -/
theorem reservedOperandIsIllegalCommand : Obligations.ReservedOperandIsIllegalCommand :=
  fun _ s h => exec_eq_refuse_of_not_wellFormed s h

end Sys2Proof.Machine
end

section
/-!
PROOFS. The family 40_checksum: the tables are those of the generator (R122) and the table-driven checksum is
CRC-16/MODBUS with its halves exchanged (R123); a checksum appended verifies, and no single wrong byte does (R127);
what CRC16 and CRCV answer (R124, R125).
-/

namespace Sys2Proof.Machine

/-! ## The tables and their generator -/

/-- Settles O8: all 256 entries of each table. -/
theorem crcTablesComeFromGenerator : Obligations.CrcTablesComeFromGenerator := by
  unfold Obligations.CrcTablesComeFromGenerator
  decide +kernel

/-! ## The two halves of a 16-bit value -/

@[simp] theorem hiByte_append (x y : Byte) : hiByte (x ++ y) = x := BitVec.extractLsb'_append_eq_left

@[simp] theorem loByte_append (x y : Byte) : loByte (x ++ y) = y := BitVec.extractLsb'_append_eq_right

theorem hiByte_append_loByte (v : Half) : hiByte v ++ loByte v = v :=
  (BitVec.extractLsb'_append_extractLsb'_eq_extractLsb' rfl).trans BitVec.extractLsb'_eq_self

theorem append_xor_append (x y x' y' : Byte) : (x ++ y) ^^^ (x' ++ y') = ((x ^^^ x') ++ (y ^^^ y') : Half) :=
  BitVec.xor_append

theorem swapHalves_append (x y : Byte) : swapHalves (x ++ y) = y ++ x := by
  rw [swapHalves, hiByte_append, loByte_append]

theorem swapHalves_injective : Function.Injective swapHalves := by
  have h : Function.Involutive swapHalves := fun v => (swapHalves_append _ _).trans (hiByte_append_loByte v)
  exact h.injective

/-! ## The bitwise step is linear over exclusive-or, and loses nothing -/

/-- What a shift adds is decided by the bit it drops (40_checksum R123). -/
theorem crcShift_eq (x : Half) : crcShift x = (x >>> 1) ^^^ (if x.getLsbD 0 then 0xA001#16 else 0#16) := by
  have h : x.extractLsb' 0 1 = 1#1 ↔ x.getLsbD 0 = true := by simp [BitVec.eq_of_getLsbD_eq_iff]
  simp only [crcShift, h]
  split <;> simp

theorem crcShift_xor (x y : Half) : crcShift (x ^^^ y) = crcShift x ^^^ crcShift y := by
  have hadd : ∀ c d : Bool, (if c ^^ d then 0xA001#16 else 0#16) =
      (if c then 0xA001#16 else 0#16) ^^^ (if d then 0xA001#16 else 0#16) := by decide
  rw [crcShift_eq, crcShift_eq, crcShift_eq, BitVec.ushiftRight_xor_distrib, BitVec.getLsbD_xor, hadd]
  ac_rfl

theorem crcEight_xor (x y : Half) : crcEight (x ^^^ y) = crcEight x ^^^ crcEight y := by
  simp only [crcEight, crcShift_xor]

/-- The polynomial's top bit keeps the bit that a shift drops. -/
theorem crcShift_getLsbD_top (x : Half) : (crcShift x).getLsbD 15 = x.getLsbD 0 := by
  rw [crcShift_eq]
  cases x.getLsbD 0 <;> simp

theorem crcShift_injective : Function.Injective crcShift := by
  intro x y h
  have h0 : x.getLsbD 0 = y.getLsbD 0 := by rw [← crcShift_getLsbD_top, h, crcShift_getLsbD_top]
  have hs : x >>> 1 = y >>> 1 := by
    rw [crcShift_eq, crcShift_eq, h0] at h
    exact (BitVec.xor_left_inj _).mp h
  refine BitVec.eq_of_getLsbD_eq fun i _ => ?_
  cases i with
  | zero => exact h0
  | succ i => simpa [Nat.add_comm] using congrArg (·.getLsbD i) hs

theorem crcEight_injective : Function.Injective crcEight := by
  have h2 := crcShift_injective.comp crcShift_injective
  have h4 := h2.comp h2
  exact h4.comp h4

/-- Eight shifts that drop only zeros never add the polynomial: they move the high byte down. -/
theorem crcEight_append_zero : ∀ x : Byte, crcEight (x ++ 0#8) = 0#8 ++ x := by decide +kernel

theorem crcEight_zero_append (i : Byte) : crcEight (0#8 ++ i) = tblLo i ++ tblHi i := by
  obtain ⟨hhi, hlo⟩ := crcTablesComeFromGenerator i
  rw [hhi, hlo, hiByte_append_loByte]

/-! ## The table-driven step is the bitwise one -/

theorem swapHalves_crcStep (r : Half) (b : Byte) : swapHalves (crcStep r b) = catalogueStep (swapHalves r) b := by
  have hsplit : swapHalves r ^^^ (0#8 ++ b) = (loByte r ++ 0#8) ^^^ (0#8 ++ (hiByte r ^^^ b)) := by
    rw [swapHalves, append_xor_append, append_xor_append, BitVec.xor_zero, BitVec.zero_xor]
  calc swapHalves (crcStep r b)
      = tblLo (hiByte r ^^^ b) ++ (loByte r ^^^ tblHi (hiByte r ^^^ b)) := swapHalves_append _ _
    _ = (0#8 ++ loByte r) ^^^ (tblLo (hiByte r ^^^ b) ++ tblHi (hiByte r ^^^ b)) := by
      rw [append_xor_append, BitVec.zero_xor]
    _ = crcEight (swapHalves r ^^^ (0#8 ++ b)) := by
      rw [hsplit, crcEight_xor, crcEight_append_zero, crcEight_zero_append]

theorem swapHalves_crc16 (bs : List Byte) : swapHalves (crc16 bs) = bs.foldl catalogueStep 0xFFFF#16 :=
  (List.foldl_hom swapHalves (fun r b => (swapHalves_crcStep r b).symm)).symm

/-- Settles O9: the step, on the exchanged halves, splits into the accumulator's half that the shifts only move and
the table's entry; the fold carries this over to every byte sequence. -/
theorem crcIsTheCatalogueCrc : Obligations.CrcIsTheCatalogueCrc :=
  ⟨swapHalves_crcStep, by decide, swapHalves_crc16, by decide +kernel, by decide⟩

/-! ## A checksum verifies, and detects a wrong byte -/

/-- The bitwise step is injective in what it adds up, so the step is injective in each of its arguments. -/
theorem crcStep_eq_iff {r r' : Half} {b b' : Byte} :
    crcStep r b = crcStep r' b' ↔ swapHalves r ^^^ (0#8 ++ b) = swapHalves r' ^^^ (0#8 ++ b') := by
  rw [← swapHalves_injective.eq_iff, swapHalves_crcStep, swapHalves_crcStep]
  exact crcEight_injective.eq_iff

theorem crcStep_left_injective (b : Byte) : Function.Injective (crcStep · b) := fun _ _ h =>
  swapHalves_injective ((BitVec.xor_left_inj _).mp (crcStep_eq_iff.mp h))

theorem crcStep_right_injective (r : Half) : Function.Injective (crcStep r) := fun b b' h => by
  have h : 0#8 ++ b = 0#8 ++ b' := (BitVec.xor_right_inj _).mp (crcStep_eq_iff.mp h)
  rw [← loByte_append 0#8 b, h, loByte_append]

theorem foldl_crcStep_injective (bs : List Byte) : Function.Injective (bs.foldl crcStep) := by
  induction bs with
  | nil => exact Function.injective_id
  | cons b bs ih => exact ih.comp (crcStep_left_injective b)

/-- The bytes before give both sides one accumulator, and the bytes after keep different accumulators different, so the
checksum tells any two bytes in one place apart (40_checksum R127). -/
theorem crc16_set_injective {p : List Byte} {k : Nat} (hk : k < p.length) :
    Function.Injective fun b => crc16 (p.set k b) := by
  intro b b' h
  simp only [List.set_eq_take_append_cons_drop, if_pos hk, crc16, List.foldl_append, List.foldl_cons] at h
  exact crcStep_right_injective _ (foldl_crcStep_injective _ h)

theorem crc16_set_ne {p : List Byte} {k : Nat} (hk : k < p.length) {b : Byte} (hb : b ≠ p.getD k 0#8) :
    crc16 (p.set k b) ≠ crc16 p := by
  rw [List.getD_eq_getElem p _ hk] at hb
  have h := (crc16_set_injective hk).ne hb
  rwa [List.set_getElem_self] at h

theorem xor_twoPow_ne (b : Byte) {j : Nat} (hj : j < 8) : b ^^^ BitVec.twoPow 8 j ≠ b := by
  intro h
  have h := congrArg (·.getLsbD j) h
  simp [hj] at h

/-- The verification of a payload followed by two bytes of a 16-bit value compares its checksum with that value. -/
theorem State.Holds.crcOk_append {s : State} {buf : Buffer} {p : List Byte} {v : Half}
    (h : s.Holds buf (p ++ [hiByte v, loByte v])) : s.crcOk buf (p.length + 2) = some (decide (crc16 p = v)) := by
  rw [h.crcOk (by omega) (by simp)]
  simp [field16, hiByte_append_loByte]

/-- Settles O10: the appended checksum is compared with that of the payload, and a payload with one byte changed has
another. -/
theorem crcVerifiesAndDetectsBitFlips : Obligations.CrcVerifiesAndDetectsBitFlips := by
  constructor
  · intro s buf p h
    rw [h.crcOk_append, decide_eq_true rfl]
  · intro s buf p k j hk hj h
    have hne := crc16_set_ne hk (xor_twoPow_ne (p.getD k 0#8) hj)
    rw [← List.length_set (as := p) (i := k), h.crcOk_append, decide_eq_false hne]

/-! ## The commands CRC16 and CRCV -/

/-- A buffer select that selects no buffer is refused before anything else (60_exceptions R256). -/
theorem legalBuffer_eq_false {b : Byte} (hb : 1 < b.toNat) : legalBuffer b = false :=
  decide_eq_false (Nat.not_le.mpr hb)

section
variable {s : State} {b : Byte} {buf : Buffer} (hb : Selects b buf) (hr : ¬s.RxBusy buf)
include hb hr

theorem execCrc16_of_selects (len : Half) :
    execCrc16 b len s =
      if s.vlen buf < len.toNat then refuse .range s
      else withRead (s.bytesAt buf 0 len.toNat) fun bs => finishCommand .ok (s.setR0 ((crc16 bs).setWidth 32)) := by
  simp only [execCrc16, (bufferOf_eq_some_iff b buf).mpr hb]
  exact if_neg hr

theorem execCrcv_of_selects (len : Half) :
    execCrcv b len s =
      if len.toNat < 2 ∨ s.vlen buf < len.toNat then refuse .range s
      else
        withRead (s.crcOk buf len.toNat) fun good =>
          if good = true then finishCommand .ok (s.setR0 (len.setWidth 32)) else finishCommand .invalidCrc s := by
  simp only [execCrcv, (bufferOf_eq_some_iff b buf).mpr hb]
  exact if_neg hr

theorem execCrc16_of_holds {bs : List Byte} (h : s.Holds buf bs) {len : Half} (hlen : len.toNat ≤ bs.length) :
    execCrc16 b len s = finishCommand .ok (s.setR0 ((crc16 (bs.take len.toNat)).setWidth 32)) := by
  rw [execCrc16_of_selects hb hr, h.length, if_neg (by omega), h.bytesAt (by omega)]
  rfl

theorem execCrcv_of_holds {bs : List Byte} (h : s.Holds buf bs) {len : Half} (h2 : 2 ≤ len.toNat)
    (hlen : len.toNat ≤ bs.length) :
    execCrcv b len s =
      if crc16 (bs.take (len.toNat - 2)) = field16 bs (len.toNat - 2) then
        finishCommand .ok (s.setR0 (len.setWidth 32))
      else finishCommand .invalidCrc s := by
  rw [execCrcv_of_selects hb hr, h.length, if_neg (by omega), h.crcOk h2 hlen, withRead_some]
  simp only [decide_eq_true_eq]

end

/-- Settles O11: one clause for each outcome of `execCrc16`. -/
theorem crc16Command : Obligations.Crc16Command :=
  ⟨fun _ _ _ _ _ hb hr h hlen => execCrc16_of_holds hb hr h hlen,
    fun s _ _ hb => exec_eq_refuse_of_not_wellFormed s (legalBuffer_eq_false hb),
    fun _ len hr => execCrc16_rxb_busy hr len,
    fun _ _ _ len hb hr hlen => (execCrc16_of_selects hb hr len).trans (if_pos hlen)⟩

/-- Settles O12: one clause for each outcome of `execCrcv`. -/
theorem crcvCommand : Obligations.CrcvCommand := by
  refine ⟨?_, fun s _ _ hb => exec_eq_refuse_of_not_wellFormed s (legalBuffer_eq_false hb),
    fun _ len hr => execCrcv_rxb_busy hr len,
    fun _ _ _ len hb hr hlen => (execCrcv_of_selects hb hr len).trans (if_pos hlen)⟩
  intro s b buf len bs hb hr h h2 hlen
  have hexec := execCrcv_of_holds hb hr h h2 hlen
  rw [BitVec.ofNat_toNat, endsInCrc_take h2 hlen]
  exact ⟨fun hc => hexec.trans (if_pos hc), fun hc => hexec.trans (if_neg hc)⟩

end Sys2Proof.Machine
end

section
/-!
PROOFS. The family 41_frame_encode: what the build commands (R141, R143, R144) and FINAL (R146) leave in TXB, that the
finalised frame is a valid wire frame (R147), and that DECREQ recovers a built request (R148).
-/

namespace Sys2Proof.Machine

/-! ## The build commands -/

/-- The answer is the state `u` with exactly the frame in TXB, not finalised, its length in `r[0]`, and OK
(41_frame_encode R140). -/
def Builds (r : Result) (u : State) (frame : List Byte) : Prop :=
  ∃ t, r = .next t ∧
    t = { u with
          txb := t.txb, txLen := toLen frame.length, txFinal := false, r0 := BitVec.ofNat 32 frame.length, sta := .ok } ∧
    t.Holds .txb frame

theorem builds_of_finishCommand (u : State) {frame : List Byte} (hl : frame.length < 512) :
    Builds (finishCommand .ok (u.build frame)) u frame :=
  ⟨_, rfl, rfl, State.holds_txb_congr rfl rfl (u.holds_build hl)⟩

/-- BLDREQ's refusal takes exactly the bytes outside the ten codes (30_encoding R83). -/
theorem fclass_refused_iff (f : Byte) :
    fclass f = .exception ∨ fclass f = .unknown ↔ ¬PlainRequest f ∧ ¬MultiRequest f ∧ ¬BareRequest f := by
  rw [plainRequest_iff, multiRequest_iff, bareRequest_iff]
  cases fclass f <;> decide

theorem State.nextTid_rtu {s : State} (hm : s.mode = .rtu) : s.nextTid = s.tid := by rw [State.nextTid, hm]

theorem State.nextTid_tcp {s : State} (hm : s.mode = .tcp) : s.nextTid = s.tid + 1#16 := by rw [State.nextTid, hm]

section
variable {f : Byte} (slave : Byte) (addr count : Half)

theorem requestBody_of_addressed (hf : PlainRequest f ∨ MultiRequest f) :
    requestBody (fclass f) slave f addr count = [slave, f, hiByte addr, loByte addr, hiByte count, loByte count] := by
  have hb : ¬(fclass f = .excStatus ∨ fclass f = .slaveId) := by
    rw [plainRequest_iff, multiRequest_iff] at hf
    rcases hf with (hf | hf | hf) | hf <;> rw [hf] <;> decide
  exact if_neg hb

theorem requestBody_of_bare (hf : BareRequest f) : requestBody (fclass f) slave f addr count = [slave, f] :=
  if_pos ((bareRequest_iff f).mp hf)

theorem State.requestFrame_rtu {s : State} (hm : s.mode = .rtu) :
    s.requestFrame slave f addr count = requestBody (fclass f) slave f addr count := by rw [State.requestFrame, hm]

theorem State.requestFrame_tcp {s : State} (hm : s.mode = .tcp) :
    s.requestFrame slave f addr count =
      mbapStart (hiByte s.nextTid) (loByte s.nextTid) ++ requestBody (fclass f) slave f addr count := by
  rw [State.requestFrame, hm]

/-- BLDREQ with one of the ten codes: the transaction id it emits is what it leaves in `tid` (41_frame_encode R141). -/
theorem execBldreq_builds (s : State) (hf : PlainRequest f ∨ MultiRequest f ∨ BareRequest f) :
    Builds (exec (.bldreq slave f addr count) s) { s with tid := s.nextTid } (s.requestFrame slave f addr count) := by
  have hc : ¬(fclass f = .exception ∨ fclass f = .unknown) := by
    rw [fclass_refused_iff]
    tauto
  have hl := s.requestFrame_length_le slave f addr count
  have hexec : exec (.bldreq slave f addr count) s =
      finishCommand .ok (State.build { s with tid := s.nextTid } (s.requestFrame slave f addr count)) := if_neg hc
  rw [hexec]
  exact builds_of_finishCommand _ (by omega)

theorem execBldreq_builds_rtu {s : State} (hm : s.mode = .rtu) (hf : PlainRequest f ∨ MultiRequest f ∨ BareRequest f) :
    Builds (exec (.bldreq slave f addr count) s) s (requestBody (fclass f) slave f addr count) := by
  have h := execBldreq_builds slave addr count s hf
  rwa [State.nextTid_rtu hm, State.requestFrame_rtu slave addr count hm] at h

theorem execBldreq_builds_tcp {s : State} (hm : s.mode = .tcp) (hf : PlainRequest f ∨ MultiRequest f ∨ BareRequest f) :
    Builds (exec (.bldreq slave f addr count) s) { s with tid := s.tid + 1#16 }
      (mbapStart (hiByte (s.tid + 1#16)) (loByte (s.tid + 1#16)) ++ requestBody (fclass f) slave f addr count) := by
  have h := execBldreq_builds slave addr count s hf
  rwa [State.requestFrame_tcp slave addr count hm, State.nextTid_tcp hm] at h

end

/-- Settles O19: the build of the request's body, six bytes or two. -/
theorem bldreqInRtuMode : Obligations.BldreqInRtuMode := by
  constructor
  · intro s slave f addr count hm hf
    have h := execBldreq_builds_rtu slave addr count hm (by tauto)
    rwa [requestBody_of_addressed slave addr count hf] at h
  · intro s slave f addr count hm hf
    have h := execBldreq_builds_rtu slave addr count hm (.inr (.inr hf))
    rwa [requestBody_of_bare slave addr count hf] at h

/-- The 16-bit increment is the one modulo 65536 (10_state R31). -/
theorem ofNat_succ_mod (v : Half) : BitVec.ofNat 16 ((v.toNat + 1) % 65536) = v + 1#16 := by
  apply BitVec.eq_of_toNat_eq
  simp

/-- The transaction id a TCP build emits is the one it leaves in `tid` (41_frame_encode R141, R142). -/
theorem Builds.emits_tid {r : Result} {s : State} {v : Half} {body : List Byte}
    (h : Builds r { s with tid := v } (mbapStart (hiByte v) (loByte v) ++ body)) :
    ∃ t, r = .next t ∧
      t = { s with
            tid := v, txb := t.txb, txLen := toLen (6 + body.length), txFinal := false,
            r0 := BitVec.ofNat 32 (6 + body.length), sta := .ok } ∧
      t.Holds .txb (mbapStart (hiByte t.tid) (loByte t.tid) ++ body) := by
  obtain ⟨t, hr, ht, hb⟩ := h
  have htid : t.tid = v := congrArg State.tid ht
  rw [List.length_append] at ht
  exact ⟨t, hr, ht, by rwa [htid]⟩

/-- Settles O20: the build of the body behind the six bytes that start with the new transaction id. -/
theorem bldreqInTcpMode : Obligations.BldreqInTcpMode := by
  constructor
  · intro s slave f addr count hm hf
    have h := execBldreq_builds_tcp slave addr count hm (f := f) (by tauto)
    rw [requestBody_of_addressed slave addr count hf] at h
    rw [ofNat_succ_mod]
    exact h.emits_tid
  · intro s slave f addr count hm hf
    have h := execBldreq_builds_tcp slave addr count hm (.inr (.inr hf))
    rw [requestBody_of_bare slave addr count hf] at h
    rw [ofNat_succ_mod]
    exact h.emits_tid

/-- Settles O21: the other bytes are of the two classes BLDREQ refuses. -/
theorem bldreqRefusesOtherFunctions : Obligations.BldreqRefusesOtherFunctions :=
  fun _ _ f _ _ hp hm hb => if_pos ((fclass_refused_iff f).mpr ⟨hp, hm, hb⟩)

/-! ## Responses -/

theorem State.receiving_of_complete {s : State} (h : s.rxState = .complete) : s.receiving = false := by
  rw [State.receiving, h]

/-- The refusals shared by the commands that need a complete receive come in this order (60_exceptions R256). -/
theorem ite_receiving_of_idle {s : State} {r r' k : Result} (hr : s.receiving = false) (hc : s.rxState ≠ .complete) :
    (if s.receiving = true then r else if s.rxState ≠ .complete then r' else k) = r' := by
  simp [hr, hc]

theorem ite_receiving_of_complete {s : State} {r r' k : Result} (hc : s.rxState = .complete) :
    (if s.receiving = true then r else if s.rxState ≠ .complete then r' else k) = k := by
  simp [State.receiving_of_complete hc, hc]

section
variable {s : State} (hc : s.rxState = .complete)
include hc

theorem execBldrsp_builds {f : Byte} {frame : List Byte} (hf : s.responseHeader f = some frame) :
    Builds (exec (.bldrsp f) s) s frame := by
  have hl := State.responseHeader_length_le hf
  have hexec : exec (.bldrsp f) s = withRead (s.responseHeader f) fun frame => finishCommand .ok (s.build frame) :=
    ite_receiving_of_complete hc
  rw [hexec, hf, withRead_some]
  exact builds_of_finishCommand s (by omega)

theorem execBldexc_builds {code f : Byte} {frame : List Byte} (hb : s.byteAt .rxb s.h = some f)
    (hf : s.responseHeader (f ||| 0x80#8) = some frame) : Builds (exec (.bldexc code) s) s (frame ++ [code]) := by
  have hl := State.responseHeader_length_le hf
  have hexec : exec (.bldexc code) s = withRead (s.byteAt .rxb s.h) fun f =>
      withRead (s.responseHeader (f ||| 0x80#8)) fun frame => finishCommand .ok (s.build (frame ++ [code])) :=
    ite_receiving_of_complete hc
  rw [hexec, hb, withRead_some, hf, withRead_some]
  exact builds_of_finishCommand s (by simp; omega)

end

/-- Settles O22: the response header of each mode, built; else the first refusal that applies. -/
theorem bldrspCommand : Obligations.BldrspCommand := by
  refine ⟨fun s f bs hc h hl => ⟨fun hm => ?_, fun hm => ?_⟩, fun s f hr => if_pos hr,
    fun s f hr hc => ite_receiving_of_idle hr hc⟩
  · exact execBldrsp_builds hc (h.responseHeader_rtu hm (by omega) f)
  · have hh : s.h = 7 := by rw [State.h, hm, Config.hdr]
    exact execBldrsp_builds hc (h.responseHeader_tcp hm (by omega) f)

/-- Settles O23: the response header with the request's function byte, bit 7 set, and the code behind it, built; else
the first refusal that applies. -/
theorem bldexcCommand : Obligations.BldexcCommand := by
  refine ⟨fun s code bs hc h hl => ?_, fun s f hr => if_pos hr, fun s f hr hc => ite_receiving_of_idle hr hc⟩
  have hf := h.byteAt_getD (i := s.h) (by omega)
  constructor
  · intro hm
    have hh : s.h = 1 := by rw [State.h, hm, Config.hdr]
    have hb := execBldexc_builds (code := code) hc hf (h.responseHeader_rtu hm (by omega) _)
    rwa [hh] at hb
  · intro hm
    have hh : s.h = 7 := by rw [State.h, hm, Config.hdr]
    have hb := execBldexc_builds (code := code) hc hf (h.responseHeader_tcp hm (by omega) _)
    rwa [hh] at hb

/-! ## FINAL -/

theorem hiByte_ofNat (n : Nat) : hiByte (BitVec.ofNat 16 n) = BitVec.ofNat 8 (n / 256) := by
  apply BitVec.eq_of_toNat_eq
  simp only [hiByte, BitVec.extractLsb'_toNat, BitVec.toNat_ofNat, Nat.shiftRight_eq_div_pow]
  omega

theorem loByte_ofNat (n : Nat) : loByte (BitVec.ofNat 16 n) = BitVec.ofNat 8 (n % 256) := by
  apply BitVec.eq_of_toNat_eq
  simp only [loByte, BitVec.extractLsb'_toNat, BitVec.toNat_ofNat, Nat.shiftRight_zero]
  omega

/-- A TCP frame with the number of bytes behind its first six in the length field (41_frame_encode R146). -/
def withLengthField (bs : List Byte) : List Byte :=
  (bs.set 4 (BitVec.ofNat 8 ((bs.length - 6) / 256))).set 5 (BitVec.ofNat 8 ((bs.length - 6) % 256))

@[simp] theorem length_withLengthField (bs : List Byte) : (withLengthField bs).length = bs.length := by
  simp [withLengthField]

theorem field16_withLengthField {bs : List Byte} (h : 6 ≤ bs.length) :
    field16 (withLengthField bs) 4 = BitVec.ofNat 16 (bs.length - 6) := by
  have h4 : 4 < bs.length := by omega
  have h5 : 5 < bs.length := by omega
  rw [← hiByte_append_loByte (BitVec.ofNat 16 _), hiByte_ofNat, loByte_ofNat]
  simp [field16, withLengthField, h4, h5]

/-- The length field lies before the unit id: the unit id and what follows stay. -/
theorem drop_withLengthField (bs : List Byte) : (withLengthField bs).drop 6 = bs.drop 6 := by
  rw [withLengthField, List.drop_set_of_lt (by omega), List.drop_set_of_lt (by omega)]

theorem State.Holds.txLen {s : State} {bs : List Byte} (h : s.Holds .txb bs) : s.txLen.toNat = bs.length := h.1

theorem State.Holds.appendCrc {s : State} {bs : List Byte} (h : s.Holds .txb bs) (hl : bs.length + 2 < 512) (r : Half) :
    (s.appendCrc r).Holds .txb (bs ++ [hiByte r, loByte r]) := by
  have hlen := h.txLen
  obtain ⟨-, hm⟩ := h
  have hm := Memory.holds_append (loByte r) (Memory.holds_append (hiByte r) hm)
  rw [List.length_append, List.append_assoc] at hm
  constructor
  · simp [State.vlen, hlen, toNat_toLen hl]
  · simpa [State.buf, hlen] using hm

theorem State.Holds.fillLength {s : State} {bs : List Byte} (h : s.Holds .txb bs) (hl : 6 ≤ bs.length) :
    s.fillLength.Holds .txb (withLengthField bs) := by
  have hlen := h.txLen
  obtain ⟨-, hm⟩ := h
  have hm := Memory.holds_set (BitVec.ofNat 8 ((bs.length - 6) / 256)) (by omega : 4 < bs.length) hm
  have hm := Memory.holds_set (i := 5) (BitVec.ofNat 8 ((bs.length - 6) % 256)) (by simp; omega) hm
  constructor
  · simpa [State.vlen] using hlen
  · simpa [State.buf, withLengthField, hlen, Config.mbapPrefix, hiByte_ofNat, loByte_ofNat] using hm

theorem State.lengths_rtu {s : State} (hm : s.mode = .rtu) : s.h = 1 ∧ s.ck = 2 ∧ s.maxAdu = 256 := by
  simp [State.h, State.ck, State.maxAdu, hm, Config.hdr, Config.ck, Config.maxAdu]

theorem State.lengths_tcp {s : State} (hm : s.mode = .tcp) : s.h = 7 ∧ s.ck = 0 ∧ s.maxAdu = 260 := by
  simp [State.h, State.ck, State.maxAdu, hm, Config.hdr, Config.ck, Config.maxAdu]

section
variable {s : State} {bs : List Byte} (h : s.Holds .txb bs) (hf : s.txFinal = false) (h1 : s.h + 1 ≤ bs.length)
  (hmax : bs.length + s.ck ≤ s.maxAdu)
include h hf h1 hmax

/-- FINAL on an unfinalised frame of a length it takes does what its mode has it do (41_frame_encode R146). -/
theorem State.Holds.execFinal_eq :
    (s.mode = .rtu → exec .final s = finishCommand .ok (s.appendCrc (crc16 bs))) ∧
      (s.mode = .tcp → exec .final s = finishCommand .ok s.fillLength) := by
  have hseq : ¬(s.txFinal = true ∨ bs.length < s.h + 1) := by simp [hf]; omega
  have hdata : ¬s.maxAdu < bs.length + s.ck := by omega
  have hbytes : s.bytesAt .txb 0 bs.length = some bs := by simpa using h.bytesAt (i := 0) (n := bs.length) (by omega)
  have hexec : exec .final s = execFinal s := rfl
  rw [hexec, execFinal, h.txLen, if_neg hseq, if_neg hdata, hbytes]
  cases s.mode <;> simp

theorem State.Holds.execFinal_rtu (hm : s.mode = .rtu) :
    ∃ t, exec .final s = .next t ∧
      t = { s with
            txb := t.txb, txLen := toLen (bs.length + 2), txFinal := true, r0 := BitVec.ofNat 32 (bs.length + 2),
            sta := .ok } ∧
      t.Holds .txb (bs ++ [hiByte (crc16 bs), loByte (crc16 bs)]) := by
  have hlen := h.txLen
  have hmode := s.mode_lengths
  have hexec := (h.execFinal_eq hf h1 hmax).1 hm
  refine ⟨_, hexec, ?_, State.holds_txb_congr rfl rfl (h.appendCrc (by omega) (crc16 bs))⟩
  rw [← hlen]
  rfl

theorem State.Holds.execFinal_tcp (hm : s.mode = .tcp) :
    ∃ t, exec .final s = .next t ∧
      t = { s with txb := t.txb, txFinal := true, r0 := BitVec.ofNat 32 bs.length, sta := .ok } ∧
      t.Holds .txb (withLengthField bs) := by
  have hlen := h.txLen
  obtain ⟨hh, -⟩ := State.lengths_tcp hm
  have hexec := (h.execFinal_eq hf h1 hmax).2 hm
  refine ⟨_, hexec, ?_, State.holds_txb_congr rfl rfl (h.fillLength (by omega))⟩
  rw [← hlen]
  rfl

end

/-- Settles O24: what FINAL does in each mode, and its two refusals in their order. -/
theorem finalCommand : Obligations.FinalCommand := by
  refine ⟨fun s bs hm hf h h2 hl => ?_, fun s bs hm hf h h8 hl => ?_, fun s h => if_pos h, fun s hf h1 hmax => ?_⟩
  · obtain ⟨hh, hck, hmax⟩ := State.lengths_rtu hm
    exact h.execFinal_rtu hf (by omega) (by omega) hm
  · obtain ⟨hh, hck, hmax⟩ := State.lengths_tcp hm
    exact h.execFinal_tcp hf (by omega) (by omega) hm
  · have hseq : ¬(s.txFinal = true ∨ s.txLen.toNat < s.h + 1) := by simp [hf]; omega
    exact (if_neg hseq).trans (if_pos hmax)

/-! ## Finalised frames are valid -/

/-- A frame that ends in its checksum verifies over its whole length (40_checksum R126, 41_frame_encode R147). -/
theorem State.Holds.crcOk_txLen {t : State} {bs : List Byte}
    (h : t.Holds .txb (bs ++ [hiByte (crc16 bs), loByte (crc16 bs)])) : t.crcOk .txb t.txLen.toNat = some true := by
  have hlen : t.txLen.toNat = bs.length + 2 := by simpa using h.txLen
  rw [hlen, h.crcOk_append, decide_eq_true rfl]

/-- Settles O26: FINAL ended OK, so it did its mode's work on the bytes that filled TXB. -/
theorem finalisedFrameIsValid : Obligations.FinalisedFrameIsValid := by
  intro s t hfill hexec hsta
  obtain ⟨bs, h⟩ := State.exists_holds (b := .txb) hfill.1
  have hlen := h.txLen
  rcases execFinal_eq_next hexec with ⟨c, hc, -, -, rfl⟩ | ⟨hf, h1, hmax, -⟩
  · exact absurd hsta hc
  · rw [hlen] at h1 hmax
    constructor
    · intro hm
      obtain ⟨u, hu, -, hb⟩ := h.execFinal_rtu hf h1 hmax hm
      obtain rfl : t = u := Host.Outcome.next.inj (hexec.symm.trans hu)
      exact hb.crcOk_txLen
    · intro hm
      obtain ⟨u, hu, -, hb⟩ := h.execFinal_tcp hf h1 hmax hm
      obtain rfl : t = u := Host.Outcome.next.inj (hexec.symm.trans hu)
      have htx : t.txLen.toNat = bs.length := by simpa using hb.txLen
      obtain ⟨hh, hck, hadu⟩ := State.lengths_tcp hm
      refine ⟨_, hb, ?_⟩
      rw [field16_withLengthField (by omega), htx, BitVec.toNat_ofNat, Nat.mod_eq_of_lt (by omega)]

/-! ## Requests run from BLDREQ on -/

theorem runAll_cons {i : Instr} {s t : State} (is : List Instr) (h : exec i s = .next t) :
    runAll (i :: is) s = runAll is t := by rw [runAll, h]

theorem runAll_append {is : List Instr} {s t : State} (js : List Instr) (h : runAll is s = .next t) :
    runAll (is ++ js) s = runAll js t := by
  induction is generalizing s with
  | nil => cases h; rfl
  | cons i is ih =>
    cases he : exec i s with
    | next u =>
      rw [runAll_cons is he] at h
      rw [List.cons_append, runAll_cons _ he, ih h]
    | fault e => simp [runAll, he] at h
    | refused e => simp [runAll, he] at h

/-- Settles O25: FINAL on the six bytes of the request, in TCP mode behind the six before its unit id. -/
theorem builtRequestIsWireFrame : Obligations.BuiltRequestIsWireFrame := by
  constructor
  · intro s slave f addr count hm hf
    obtain ⟨t, hbuild, ht, hb⟩ := execBldreq_builds_rtu slave addr count hm (.inl hf)
    rw [requestBody_of_addressed slave addr count (.inl hf)] at hb
    have htm : t.mode = .rtu := (congrArg State.mode ht).trans hm
    have htf : t.txFinal = false := congrArg State.txFinal ht
    obtain ⟨hh, hck, hmax⟩ := State.lengths_rtu htm
    obtain ⟨u, hfinal, -, hu⟩ := hb.execFinal_rtu htf (by simp; omega) (by simp; omega) htm
    exact ⟨u, _, by rw [runAll_cons _ hbuild, runAll_cons _ hfinal, runAll], rfl, hu, hu.crcOk_txLen⟩
  · intro s slave f addr count hm hf
    obtain ⟨t, hbuild, ht, hb⟩ := execBldreq_builds_tcp slave addr count hm (.inl hf)
    rw [requestBody_of_addressed slave addr count (.inl hf)] at hb
    have htm : t.mode = .tcp := (congrArg State.mode ht).trans hm
    have htf : t.txFinal = false := congrArg State.txFinal ht
    obtain ⟨hh, hck, hmax⟩ := State.lengths_tcp htm
    obtain ⟨u, hfinal, -, hu⟩ := hb.execFinal_tcp htf (by simp [mbapStart]; omega) (by simp [mbapStart]; omega) htm
    exact ⟨u, by rw [runAll_cons _ hbuild, runAll_cons _ hfinal, runAll], by simpa [withLengthField, mbapStart] using hu⟩

/-! ## DECREQ on the fields of a frame -/

section
variable {s : State} {b : Buffer} {bs : List Byte} (h : s.Holds b bs)
include h

/-- Address and count are the two fields behind the function byte, where the class has them (42_predict_decode R163). -/
theorem State.Holds.addressFields {need : Nat} (hl : s.h + need ≤ bs.length) :
    s.addressFields b need = some
      (if 5 ≤ need then (field16 bs (s.h + 1)).setWidth 32 else 0#32,
        if 5 ≤ need then (field16 bs (s.h + 3)).setWidth 32 else 0#32) := by
  unfold State.addressFields
  split
  · rw [h.be16At (by omega), h.be16At (by omega)]
  · rfl

/-- The byte count is the sixth byte from the function byte on, where the class has one (42_predict_decode R163). -/
theorem State.Holds.byteCountField {need : Nat} (hl : s.h + need ≤ bs.length) :
    s.byteCountField b need = some (if need = 6 then (bs.getD (s.h + 5) 0#8).setWidth 32 else 0#32) := by
  unfold State.byteCountField
  split
  · rw [h.byteAt_getD (by omega), Option.map_some]
  · rfl

theorem State.Holds.mbapFields (hl : s.h ≤ bs.length) :
    s.mbapFields b = some
      (if s.mode = .tcp then (field16 bs 0).setWidth 32 else 0#32,
        if s.mode = .tcp then (field16 bs 4).setWidth 32 else 0#32) := by
  cases hm : s.mode with
  | rtu => simp [State.mbapFields, hm]
  | tcp =>
    obtain ⟨hh, -⟩ := State.lengths_tcp hm
    rw [State.mbapFields, hm, h.be16At (by omega), h.be16At (by omega)]
    rfl

end

/-- The fields DECREQ delivers from the frame `bs` (42_predict_decode R163). -/
def State.decodedRequest (s : State) (bs : List Byte) : Decoded where
  d0 := (bs.getD (s.h - 1) 0#8).setWidth 32
  d1 := (bs.getD s.h 0#8).setWidth 32
  d2 := if 5 ≤ requestNeed (fclass (bs.getD s.h 0#8)) then (field16 bs (s.h + 1)).setWidth 32 else 0#32
  d3 := if 5 ≤ requestNeed (fclass (bs.getD s.h 0#8)) then (field16 bs (s.h + 3)).setWidth 32 else 0#32
  d4 := if s.mode = .tcp then (field16 bs 0).setWidth 32 else 0#32
  d5 := if s.mode = .tcp then (field16 bs 4).setWidth 32 else 0#32
  d6 := if requestNeed (fclass (bs.getD s.h 0#8)) = 6 then (bs.getD (s.h + 5) 0#8).setWidth 32 else 0#32

theorem one_le_requestNeed (c : FClass) : 1 ≤ requestNeed c := by cases c <;> decide

theorem State.Holds.requestFields {s : State} {b : Buffer} {bs : List Byte} (h : s.Holds b bs)
    (hl : s.h + requestNeed (fclass (bs.getD s.h 0#8)) ≤ bs.length) :
    s.requestFields b (bs.getD s.h 0#8) = some (s.decodedRequest bs) := by
  have h1 := one_le_requestNeed (fclass (bs.getD s.h 0#8))
  rw [State.requestFields, h.byteAt_getD (by omega), h.addressFields hl, h.byteCountField hl, h.mbapFields (by omega)]
  rfl

/-- DECREQ TX on a frame whose body has the bytes its function code needs. -/
theorem State.Holds.decreq_txb {s : State} {bs : List Byte} (h : s.Holds .txb bs)
    (hl : s.h + requestNeed (fclass (bs.getD s.h 0#8)) ≤ s.bodyOf bs .txb) :
    exec (.decreq 0#8) s = finishCommand .ok (s.deliver (s.decodedRequest bs)) := by
  have h1 := one_le_requestNeed (fclass (bs.getD s.h 0#8))
  have hle := s.bodyOf_le bs .txb
  have hexec : exec (.decreq 0#8) s = execDecreq 0#8 s := rfl
  rw [hexec, execDecreq_txb, h.bodyLen, if_neg (by omega), h.byteAt_getD (by omega), withRead_some, if_neg (by omega),
    h.requestFields (by omega), withRead_some]

/-! ## What a request in TXB carries -/

/-- TXB holds a frame that reads `body` from the slave address or unit id on, without its checksum (20_memory R64). -/
def State.Carries (s : State) (body : List Byte) : Prop :=
  ∃ bs, s.Holds .txb bs ∧ (bs.take (s.bodyOf bs .txb)).drop (s.h - 1) = body

section
variable {s : State} {bs body : List Byte}

/-- An unfinalised frame has no checksum yet. -/
theorem State.Holds.carries (h : s.Holds .txb bs) (hf : s.txFinal = false) (hb : bs.drop (s.h - 1) = body) :
    s.Carries body :=
  ⟨bs, h, by simpa [State.bodyOf, hf] using hb⟩

theorem State.Carries.exists_drop (h : s.Carries body) (hf : s.txFinal = false) :
    ∃ bs, s.Holds .txb bs ∧ bs.drop (s.h - 1) = body := by
  obtain ⟨bs, hbs, hb⟩ := h
  exact ⟨bs, hbs, by simpa [State.bodyOf, hf] using hb⟩

/-- A request build is an unfinalised frame that carries the request's body (41_frame_encode R141). -/
theorem execBldreq_carries {f : Byte} (s : State) (slave : Byte) (addr count : Half)
    (hf : PlainRequest f ∨ MultiRequest f ∨ BareRequest f) :
    ∃ t, exec (.bldreq slave f addr count) s = .next t ∧ t.Carries (requestBody (fclass f) slave f addr count) ∧
      t.txFinal = false ∧ t.mode = s.mode := by
  obtain ⟨t, hexec, ht, hb⟩ := execBldreq_builds slave addr count s hf
  have htm : t.mode = s.mode := (congrArg State.mode ht :)
  have htf : t.txFinal = false := congrArg State.txFinal ht
  refine ⟨t, hexec, hb.carries htf ?_, htf, htm⟩
  cases hm : s.mode with
  | rtu =>
    obtain ⟨hh, -⟩ := State.lengths_rtu (htm.trans hm)
    rw [State.requestFrame_rtu slave addr count hm, hh, List.drop_zero]
  | tcp =>
    obtain ⟨hh, -⟩ := State.lengths_tcp (htm.trans hm)
    rw [State.requestFrame_tcp slave addr count hm, hh]
    rfl

/-- PUSHB appends one byte (44_buffer_config R234). -/
theorem State.Holds.execPushb (h : s.Holds .txb bs) (hf : s.txFinal = false) (hl : bs.length < s.maxAdu - s.ck)
    (n : Byte) :
    ∃ t, exec (.pushb n) s = .next t ∧
      t = { s with txb := t.txb, txLen := toLen (bs.length + 1), r0 := BitVec.ofNat 32 (bs.length + 1), sta := .ok } ∧
      t.Holds .txb (bs ++ [n]) := by
  have hmode := s.mode_lengths
  have hexec : exec (.pushb n) s = finishCommand .ok
      { s with
        txb := Memory.write s.txb bs.length n, txLen := toLen (bs.length + 1), r0 := BitVec.ofNat 32 (bs.length + 1) } := by
    rw [← h.txLen]
    exact (if_neg (by simp [hf])).trans (if_neg (by rw [h.txLen]; omega))
  refine ⟨_, hexec, rfl, ?_, Memory.holds_append n h.2⟩
  rw [List.length_append]
  exact toNat_toLen (n := bs.length + 1) (by omega)

theorem State.lengths_congr {t : State} (hm : t.mode = s.mode) : t.h = s.h ∧ t.ck = s.ck ∧ t.maxAdu = s.maxAdu := by
  simp [State.h, State.ck, State.maxAdu, hm]

/-- Bytes pushed behind an unfinalised frame are what it carries then. -/
theorem State.Carries.runAll_pushb (h : s.Carries body) (hf : s.txFinal = false) (h1 : body ≠ []) (data : List Byte)
    (hl : s.h - 1 + body.length + data.length + s.ck ≤ s.maxAdu) :
    ∃ t, runAll (data.map .pushb) s = .next t ∧ t.Carries (body ++ data) ∧ t.txFinal = false ∧ t.mode = s.mode := by
  induction data generalizing s body with
  | nil => exact ⟨s, rfl, by rwa [List.append_nil], hf, rfl⟩
  | cons n data ih =>
    obtain ⟨bs, hbs, hb⟩ := h.exists_drop hf
    have hpos := List.length_pos_iff.mpr h1
    have hlen : bs.length - (s.h - 1) = body.length := by rw [← hb, List.length_drop]
    rw [List.length_cons] at hl
    obtain ⟨t, hexec, ht, hpush⟩ := hbs.execPushb hf (by omega) n
    have htm : t.mode = s.mode := (congrArg State.mode ht :)
    have htf : t.txFinal = false := (congrArg State.txFinal ht).trans hf
    obtain ⟨hh, hck, hmax⟩ := State.lengths_congr htm
    have hcarry : t.Carries (body ++ [n]) := by
      refine hpush.carries htf ?_
      rw [hh, List.drop_append_of_le_length (by omega), hb]
    obtain ⟨u, hrun, hu, huf, hum⟩ := ih hcarry htf (by simp) (by simp; omega)
    rw [List.append_assoc] at hu
    exact ⟨u, (runAll_cons _ hexec).trans hrun, hu, huf, hum.trans htm⟩

/-- FINAL leaves what the frame carries: it adds the checksum, or writes before the unit id (41_frame_encode R148). -/
theorem State.Carries.execFinal (h : s.Carries body) (hf : s.txFinal = false) (h2 : 2 ≤ body.length)
    (hl : s.h - 1 + body.length + s.ck ≤ s.maxAdu) : ∃ t, exec .final s = .next t ∧ t.Carries body := by
  obtain ⟨bs, hbs, hb⟩ := h.exists_drop hf
  have hlen : bs.length - (s.h - 1) = body.length := by rw [← hb, List.length_drop]
  cases hm : s.mode with
  | rtu =>
    obtain ⟨t, hexec, ht, hbt⟩ := hbs.execFinal_rtu hf (by omega) (by omega) hm
    obtain ⟨hh, hck, -⟩ := State.lengths_rtu ((congrArg State.mode ht).trans hm)
    have htf : t.txFinal = true := congrArg State.txFinal ht
    refine ⟨t, hexec, _, hbt, ?_⟩
    rw [← hb, (State.lengths_rtu hm).1, hh]
    simp [State.bodyOf, htf, hck]
  | tcp =>
    obtain ⟨t, hexec, ht, hbt⟩ := hbs.execFinal_tcp hf (by omega) (by omega) hm
    obtain ⟨hh, hck, -⟩ := State.lengths_tcp ((congrArg State.mode ht).trans hm)
    refine ⟨t, hexec, _, hbt, ?_⟩
    have hbody : t.bodyOf (withLengthField bs) .txb = (withLengthField bs).length := by simp [State.bodyOf, hck]
    rw [← hb, (State.lengths_tcp hm).1, hh, hbody, List.take_length, drop_withLengthField]

end

/-- What DECREQ reports of the request that reads `slave`, `f` and `rest` on the wire (42_predict_decode R163). -/
def State.Reports (t : State) (slave f : Byte) (rest : List Byte) : Prop :=
  t.sta = .ok ∧ t.r0 = slave.setWidth 32 ∧ t.r1 = f.setWidth 32 ∧
    t.r2 = (if 5 ≤ requestNeed (fclass f) then (field16 rest 0).setWidth 32 else 0#32) ∧
    t.r3 = (if 5 ≤ requestNeed (fclass f) then (field16 rest 2).setWidth 32 else 0#32) ∧
    t.r6 = (if requestNeed (fclass f) = 6 then (rest.getD 4 0#8).setWidth 32 else 0#32)

theorem getD_of_drop_take {bs body : List Byte} {n k i : Nat} (h : (bs.take n).drop k = body) (hi : i < body.length) :
    bs.getD (k + i) 0#8 = body.getD i 0#8 := by
  subst h
  rw [List.length_drop, List.length_take] at hi
  rw [List.getD_eq_getElem?_getD, List.getD_eq_getElem?_getD, List.getElem?_drop, List.getElem?_take_of_lt (by omega)]

section
variable {s : State} {slave f : Byte} {rest : List Byte}

/-- The fields DECREQ delivers, of a frame whose bytes from the function byte on start with `f` and `rest`. -/
theorem State.reports_decodedRequest {bs : List Byte} (hn : requestNeed (fclass f) ≤ rest.length + 1)
    (hrest : ∀ i < rest.length + 1, bs.getD (s.h + i) 0#8 = (f :: rest).getD i 0#8) :
    ((s.deliver (s.decodedRequest bs)).done .ok).Reports (bs.getD (s.h - 1) 0#8) f rest := by
  have hf : bs.getD s.h 0#8 = f := hrest 0 (by omega)
  have hfield : ∀ i, i + 1 < rest.length → field16 bs (s.h + 1 + i) = field16 rest i := by
    intro i hi
    rw [field16, field16, Nat.add_assoc, Nat.add_assoc, hrest _ (by omega), hrest _ (by omega), Nat.add_comm 1 i]
    rfl
  subst hf
  refine ⟨rfl, rfl, rfl, ite_congr rfl (fun h5 => ?_) fun _ => rfl, ite_congr rfl (fun h5 => ?_) fun _ => rfl,
    ite_congr rfl (fun h6 => ?_) fun _ => rfl⟩
  · rw [← hfield 0 (by omega)]
  · rw [← hfield 2 (by omega)]
  · rw [hrest 5 (by omega), List.getD_cons_succ]

theorem State.Carries.execDecreq (h : s.Carries (slave :: f :: rest))
    (hn : requestNeed (fclass f) ≤ rest.length + 1) :
    ∃ t, exec (.decreq 0#8) s = .next t ∧ t.Reports slave f rest := by
  obtain ⟨bs, hbs, hb⟩ := h
  have hmode := s.mode_lengths
  have hlen := congrArg List.length hb
  rw [List.length_drop, List.length_take, List.length_cons, List.length_cons] at hlen
  have hslave : bs.getD (s.h - 1) 0#8 = slave := getD_of_drop_take (i := 0) hb (by simp)
  have hrest : ∀ i < rest.length + 1, bs.getD (s.h + i) 0#8 = (f :: rest).getD i 0#8 := by
    intro i hi
    have hidx : s.h + i = s.h - 1 + (i + 1) := by omega
    rw [hidx, getD_of_drop_take hb (by simp; omega), List.getD_cons_succ]
  have hf : bs.getD s.h 0#8 = f := hrest 0 (by omega)
  refine ⟨_, hbs.decreq_txb (by rw [hf]; omega), ?_⟩
  rw [← hslave]
  exact State.reports_decodedRequest hn hrest

/-- DECREQ TX reports what an unfinalised frame carries, before FINAL and after it. -/
theorem State.Carries.decodes (h : s.Carries (slave :: f :: rest)) (hf : s.txFinal = false)
    (hn : requestNeed (fclass f) ≤ rest.length + 1) (hl : s.h + 1 + rest.length + s.ck ≤ s.maxAdu) :
    ∃ t u, runAll [.decreq 0#8] s = .next t ∧ runAll [.final, .decreq 0#8] s = .next u ∧
      ∀ v ∈ [t, u], v.Reports slave f rest := by
  have hmode := s.mode_lengths
  obtain ⟨t, ht, hrt⟩ := h.execDecreq hn
  obtain ⟨w, hw, hcarry⟩ := h.execFinal hf (by simp) (by simp; omega)
  obtain ⟨u, hu, hru⟩ := hcarry.execDecreq hn
  refine ⟨t, u, by rw [runAll_cons _ ht, runAll], by rw [runAll_cons _ hw, runAll_cons _ hu, runAll], ?_⟩
  simp [hrt, hru]

/-- A report of a request with address and count (30_encoding R84, R85). -/
theorem State.Reports.addressed {addr count : Half}
    (h : s.Reports slave f (hiByte addr :: loByte addr :: hiByte count :: loByte count :: rest))
    (hn : 5 ≤ requestNeed (fclass f)) :
    s.sta = .ok ∧ s.r0 = slave.setWidth 32 ∧ s.r1 = f.setWidth 32 ∧ s.r2 = addr.setWidth 32 ∧
      s.r3 = count.setWidth 32 := by
  obtain ⟨hsta, h0, h1, h2, h3, -⟩ := h
  rw [if_pos hn] at h2 h3
  have haddr := hiByte_append_loByte addr
  have hcount := hiByte_append_loByte count
  exact ⟨hsta, h0, h1, by simpa [field16, haddr] using h2, by simpa [field16, hcount] using h3⟩

end

theorem requestNeed_of_plain {f : Byte} (hf : PlainRequest f) : requestNeed (fclass f) = 5 := by
  rcases (plainRequest_iff f).mp hf with h | h | h <;> rw [h] <;> rfl

theorem requestNeed_of_multi {f : Byte} (hf : MultiRequest f) : requestNeed (fclass f) = 6 := by
  rw [(multiRequest_iff f).mp hf]
  rfl

theorem requestNeed_of_bare {f : Byte} (hf : BareRequest f) : requestNeed (fclass f) = 1 := by
  rcases (bareRequest_iff f).mp hf with h | h <;> rw [h] <;> rfl

/-- Settles O27: a build carries the request's body, which pushes extend and FINAL leaves, and DECREQ reports it. -/
theorem builtRequestRoundTrips : Obligations.BuiltRequestRoundTrips := by
  refine ⟨fun s slave f addr count hf => ?_, fun s slave f n addr count data hf hl => ?_,
    fun s slave f addr count hf => ?_⟩
  · have hneed := requestNeed_of_plain hf
    obtain ⟨t, hbuild, hcarry, htf, -⟩ := execBldreq_carries s slave addr count (.inl hf)
    rw [requestBody_of_addressed slave addr count (.inl hf)] at hcarry
    have hmode := t.mode_lengths
    obtain ⟨v, u, hv, hu, hrep⟩ := hcarry.decodes htf (by simp [hneed]) (by simp; omega)
    refine ⟨v, u, (runAll_cons _ hbuild).trans hv, (runAll_cons _ hbuild).trans hu, fun w hw => ?_⟩
    exact (hrep w hw).addressed (by omega)
  · have hneed := requestNeed_of_multi hf
    obtain ⟨t, hbuild, hcarry, htf, htm⟩ := execBldreq_carries s slave addr count (.inr (.inl hf))
    rw [requestBody_of_addressed slave addr count (.inr hf)] at hcarry
    obtain ⟨hth, htck, htmax⟩ := State.lengths_congr htm
    have hmode := t.mode_lengths
    obtain ⟨p, hpush, hcarry, hpf, hpm⟩ := hcarry.runAll_pushb htf (by simp) (n :: data) (by simp; omega)
    obtain ⟨hph, hpck, hpmax⟩ := State.lengths_congr hpm
    obtain ⟨v, u, hv, hu, hrep⟩ := hcarry.decodes hpf (by simp [hneed]) (by simp; omega)
    refine ⟨v, u, ?_, ?_, fun w hw => ?_⟩
    · rw [runAll_cons _ hbuild, runAll_append _ hpush, hv]
    · rw [runAll_cons _ hbuild, runAll_append _ hpush, hu]
    · obtain ⟨hsta, h0, h1, h2, h3⟩ := (hrep w hw).addressed (by omega)
      obtain ⟨-, -, -, -, -, h6⟩ := hrep w hw
      rw [if_pos hneed] at h6
      exact ⟨hsta, h0, h1, h2, h3, h6⟩
  · have hneed := requestNeed_of_bare hf
    obtain ⟨t, hbuild, hcarry, htf, -⟩ := execBldreq_carries s slave addr count (.inr (.inr hf))
    rw [requestBody_of_bare slave addr count hf] at hcarry
    have hmode := t.mode_lengths
    obtain ⟨v, u, hv, hu, hrep⟩ := hcarry.decodes htf (by simp [hneed]) (by simp; omega)
    refine ⟨v, u, (runAll_cons _ hbuild).trans hv, (runAll_cons _ hbuild).trans hu, fun w hw => ?_⟩
    obtain ⟨hsta, h0, h1, h2, h3, -⟩ := hrep w hw
    rw [if_neg (by omega)] at h2 h3
    exact ⟨hsta, h0, h1, h2, h3⟩

end Sys2Proof.Machine
end

section
/-!
PROOFS. The family 42_predict_decode: what PREDICT (R161), DECREQ (R163), DECRSP (R164), CHKQTY (R166) and UNPACK
(R167, R168) deliver from the frames the buffers hold, and what each refuses.
-/

namespace Sys2Proof.Machine

/-! ## Reads and width codes -/

theorem isRead_fclass_iff (f : Byte) : (fclass f).isRead = true ↔ f ∈ [0x01#8, 0x02#8, 0x03#8, 0x04#8] := by
  simp [FClass.isRead, fclass_rdBits_iff, fclass_rdRegs_iff, or_assoc]

/-- A width code above 9 is refused before anything else (60_exceptions R256). -/
theorem legalWidth_eq_false {w : Byte} (hw : 9 < w.toNat) : legalWidth w = false :=
  decide_eq_false (Nat.not_le.mpr hw)

theorem readByteCount_rdBits (width : Width) (n : Nat) : readByteCount .rdBits width n = (n + 7) / 8 := rfl

theorem readByteCount_rdRegs (width : Width) (n : Nat) : readByteCount .rdRegs width n = bpv width * n := rfl

/-! ## PREDICT -/

section
variable {s : State} {w : Byte} {width : Width} {bs : List Byte} {c : FClass} (hw : widthOf w = some width)
  (h : s.Holds .txb bs) (h1 : s.h + 1 ≤ s.bodyOf bs .txb) (hc : fclass (bs.getD s.h 0#8) = c)
include hw h h1 hc

/-- PREDICT on a request with a function byte goes by the function's class alone (42_predict_decode R161). -/
theorem State.Holds.execPredict_eq :
    execPredict w s =
      if c = .exception ∨ c = .unknown then refuse .invalidData s
      else if c = .slaveId then refuse .undefinedLength s
      else if c.isRead = true then
        if s.bodyOf bs .txb < s.h + 5 then refuse .invalidData s
        else finishCommand .ok (s.predicted (2 + readByteCount c width (field16 bs (s.h + 3)).toNat))
      else finishCommand .ok (s.predicted (fixedPduLen c)) := by
  have hle := s.bodyOf_le bs .txb
  simp only [execPredict, hw, h.bodyLen, if_neg (Nat.not_lt.mpr h1),
    h.byteAt_getD (show s.h < bs.length by omega), withRead_some, hc]
  by_cases h5 : s.bodyOf bs .txb < s.h + 5
  · simp only [h5, if_true]
  · simp only [h5, if_false, h.be16At (show s.h + 3 + 1 < bs.length by omega), withRead_some]

theorem State.Holds.execPredict_read (hr : c.isRead = true) (h5 : s.h + 5 ≤ s.bodyOf bs .txb) :
    execPredict w s =
      finishCommand .ok (s.predicted (2 + readByteCount c width (field16 bs (s.h + 3)).toNat)) := by
  have hcls : c = .rdBits ∨ c = .rdRegs := of_decide_eq_true hr
  rw [h.execPredict_eq hw h1 hc, if_pos hr, if_neg (Nat.not_lt.mpr h5)]
  rcases hcls with rfl | rfl <;> rfl

/-- A read without its count (42_predict_decode R161). -/
theorem State.Holds.execPredict_read_short (hr : c.isRead = true) (h5 : s.bodyOf bs .txb < s.h + 5) :
    execPredict w s = refuse .invalidData s := by
  have hcls : c = .rdBits ∨ c = .rdRegs := of_decide_eq_true hr
  rw [h.execPredict_eq hw h1 hc, if_pos hr, if_pos h5]
  rcases hcls with rfl | rfl <;> rfl

theorem State.Holds.execPredict_fixed (hf : c = .wrSingle ∨ c = .wrMulti ∨ c = .excStatus) {pdu : Nat}
    (hp : fixedPduLen c = pdu) : execPredict w s = finishCommand .ok (s.predicted pdu) := by
  rw [h.execPredict_eq hw h1 hc, hp]
  rcases hf with rfl | rfl | rfl <;> rfl

end

/-- Settles O28: PREDICT by the class of the request's function byte, and the two refusals that come before it. -/
theorem predictCommand : Obligations.PredictCommand := by
  refine ⟨?_, fun s w hw => exec_eq_refuse_of_not_wellFormed s (legalWidth_eq_false hw), ?_, ?_⟩
  · rintro s w bs n pdu hw h rfl hf
    obtain ⟨width, hwidth, hbpv, -⟩ := widthOf_spec w hw
    change execPredict w s = finishCommand .ok (s.predicted pdu)
    rcases hf with ⟨hf, h5, rfl⟩ | ⟨hf, h5, rfl⟩ | ⟨hf, h1, rfl⟩ | ⟨hf, h1, rfl⟩
    · rw [← readByteCount_rdBits width]
      exact h.execPredict_read hwidth (by omega) ((fclass_rdBits_iff _).mpr hf) rfl h5
    · rw [← hbpv, ← readByteCount_rdRegs]
      exact h.execPredict_read hwidth (by omega) ((fclass_rdRegs_iff _).mpr hf) rfl h5
    · have hcls : fclass (bs.getD s.h 0#8) = .wrSingle ∨ fclass (bs.getD s.h 0#8) = .wrMulti := by
        simpa [fclass_wrSingle_iff, fclass_wrMulti_iff, or_assoc] using hf
      rcases hcls with hc | hc
      · exact h.execPredict_fixed hwidth h1 hc (.inl rfl) rfl
      · exact h.execPredict_fixed hwidth h1 hc (.inr (.inl rfl)) rfl
    · exact h.execPredict_fixed hwidth h1 ((fclass_excStatus_iff _).mpr hf) (.inr (.inr rfl)) rfl
  · intro s w hw h1
    obtain ⟨width, hwidth, -⟩ := widthOf_spec w hw
    change execPredict w s = refuse .sequence s
    simp only [execPredict, hwidth, if_pos h1]
  · intro s w bs hw h h1
    obtain ⟨width, hwidth, -⟩ := widthOf_spec w hw
    refine ⟨fun hf => ?_, fun hp hm hb => ?_, fun hf h5 => ?_⟩
    · exact h.execPredict_eq hwidth h1 ((fclass_slaveId_iff _).mpr hf)
    · exact (h.execPredict_eq hwidth h1 rfl).trans (if_pos ((fclass_refused_iff _).mpr ⟨hp, hm, hb⟩))
    · exact h.execPredict_read_short hwidth h1 rfl ((isRead_fclass_iff _).mpr hf) h5

/-! ## DECREQ -/

/-- The other function codes need the function byte alone (42_predict_decode R163). -/
theorem requestNeed_of_other {f : Byte} (hp : ¬PlainRequest f) (hm : ¬MultiRequest f) :
    requestNeed (fclass f) = 1 := by
  rw [plainRequest_iff] at hp
  rw [multiRequest_iff] at hm
  rw [requestNeed_le, if_neg hm, if_neg hp]

/-- DECREQ on a buffer it may read goes by the length the function code needs (42_predict_decode R163). -/
theorem State.Holds.execDecreq_eq {s : State} {b : Byte} {buf : Buffer} {bs : List Byte} (h : s.Holds buf bs)
    (hb : Selects b buf) (hr : ¬s.RxBusy buf) (hc : buf = .rxb → s.rxState = .complete) :
    execDecreq b s =
      if s.bodyOf bs buf < s.h + requestNeed (fclass (bs.getD s.h 0#8)) then refuse .invalidData s
      else finishCommand .ok (s.deliver (s.decodedRequest bs)) := by
  have hneed := one_le_requestNeed (fclass (bs.getD s.h 0#8))
  have hle := s.bodyOf_le bs buf
  have hbusy : ¬(buf = .rxb ∧ s.receiving = true) := hr
  have hcomplete : ¬(buf = .rxb ∧ s.rxState ≠ .complete) := fun hx => hx.2 (hc hx.1)
  simp only [execDecreq, (bufferOf_eq_some_iff b buf).mpr hb, if_neg hbusy, if_neg hcomplete, h.bodyLen]
  by_cases h1 : s.bodyOf bs buf < s.h + 1
  · rw [if_pos h1, if_pos (by omega)]
  · rw [if_neg h1, h.byteAt_getD (by omega), withRead_some]
    refine ite_congr rfl (fun _ => rfl) fun hl => ?_
    rw [h.requestFields (by omega), withRead_some]

/-- Settles O29: DECREQ delivers where the body has the length its function code needs, and refuses where it is
shorter. -/
theorem decreqCommand : Obligations.DecreqCommand := by
  refine ⟨?_, fun s b hb => exec_eq_refuse_of_not_wellFormed s (legalBuffer_eq_false hb),
    fun s hr => execDecreq_rxb_busy hr, ?_, ?_⟩
  · intro s b buf bs hb hr hc h hf
    have hl : s.h + requestNeed (fclass (bs.getD s.h 0#8)) ≤ s.bodyOf bs buf := by
      rcases hf with ⟨hp, hl⟩ | ⟨hm, hl⟩ | ⟨hp, hm, hl⟩
      · rwa [requestNeed_of_plain hp]
      · rwa [requestNeed_of_multi hm]
      · rwa [requestNeed_of_other hp hm]
    change execDecreq b s = _
    rw [h.execDecreq_eq hb hr hc, if_neg (Nat.not_lt.mpr hl)]
    simp only [← five_le_requestNeed_iff, ← requestNeed_eq_six_iff]
    rfl
  · intro s hr hc
    change execDecreq 1#8 s = refuse .sequence s
    simp [execDecreq, bufferOf, hr, hc]
  · intro s b buf bs hb hr hc h hf
    have hl : s.bodyOf bs buf < s.h + requestNeed (fclass (bs.getD s.h 0#8)) := by
      have hneed := one_le_requestNeed (fclass (bs.getD s.h 0#8))
      rcases hf with hl | ⟨hp, hl⟩ | ⟨hm, hl⟩
      · omega
      · rwa [requestNeed_of_plain hp]
      · rwa [requestNeed_of_multi hm]
    exact (h.execDecreq_eq hb hr hc).trans (if_pos hl)

/-! ## DECRSP -/

theorem setWidth_ofBool (x : Bool) : (BitVec.ofBool x).setWidth 32 = if x = true then 1#32 else 0#32 := by
  cases x <;> rfl

/-- The three match bits weigh 1, 2 and 4 (42_predict_decode R164). -/
theorem matchMask_eq : ∀ fn tid id : Bool, matchMask fn tid id =
    BitVec.ofNat 32 ((if id = true then 1 else 0) + (if tid = true then 2 else 0) + (if fn = true then 4 else 0)) := by
  decide

/-- The fields DECRSP delivers from the response `rs` and the request `qs` (42_predict_decode R164). -/
def State.decodedResponse (s : State) (rs qs : List Byte) : Decoded where
  d0 := (rs.getD (s.h - 1) 0#8).setWidth 32
  d1 := (rs.getD s.h 0#8).setWidth 32
  d2 := if 0x80 ≤ (rs.getD s.h 0#8).toNat then 1#32 else 0#32
  d3 := if s.h + 2 ≤ s.bodyOf rs .rxb then (rs.getD (s.h + 1) 0#8).setWidth 32 else 0#32
  d4 := if s.mode = .tcp then (field16 rs 0).setWidth 32 else 0#32
  d5 := if s.mode = .tcp then (field16 rs 4).setWidth 32 else 0#32
  d6 := BitVec.ofNat 32
    ((if rs.getD (s.h - 1) 0#8 = qs.getD (s.h - 1) 0#8 then 1 else 0) +
      (if s.mode = .rtu ∨ field16 rs 0 = field16 qs 0 then 2 else 0) +
      (if (rs.getD s.h 0#8).toNat % 128 = (qs.getD s.h 0#8).toNat then 4 else 0))

section
variable {s : State} {rs qs : List Byte} (hrx : s.Holds .rxb rs)
include hrx

theorem State.Holds.firstPayload :
    s.firstPayload = some (if s.h + 2 ≤ s.bodyOf rs .rxb then (rs.getD (s.h + 1) 0#8).setWidth 32 else 0#32) := by
  have hle := s.bodyOf_le rs .rxb
  unfold State.firstPayload
  rw [hrx.bodyLen]
  split
  · rw [hrx.byteAt_getD (by omega), Option.map_some]
  · rfl

variable (htx : s.Holds .txb qs)
include htx

theorem State.Holds.tidMatch (hr : s.h ≤ rs.length) (hq : s.h ≤ qs.length) :
    s.tidMatch = some (decide (s.mode = .rtu ∨ field16 rs 0 = field16 qs 0)) := by
  cases hm : s.mode with
  | rtu => simp [State.tidMatch, hm]
  | tcp =>
    obtain ⟨hh, -⟩ := State.lengths_tcp hm
    rw [State.tidMatch, hm, hrx.be16At (by omega), htx.be16At (by omega)]
    simp

theorem State.Holds.responseFields (hr : s.h + 1 ≤ rs.length) (hq : s.h + 1 ≤ qs.length) :
    s.responseFields = some (s.decodedResponse rs qs) := by
  rw [State.responseFields, hrx.byteAt_getD (by omega), hrx.byteAt_getD (by omega), hrx.firstPayload,
    hrx.mbapFields (by omega), htx.byteAt_getD (by omega), htx.byteAt_getD (by omega),
    hrx.tidMatch htx (by omega) (by omega)]
  simp only [State.decodedResponse, setWidth_ofBool, exceptionBit_eq, matchMask_eq, and_seven_bits, decide_eq_true_eq]

end

/-- Settles O30: DECRSP past its two refusals delivers `State.decodedResponse`. -/
theorem decrspCommand : Obligations.DecrspCommand := by
  refine ⟨?_, fun s hr => if_pos hr, ?_⟩
  · intro s rs qs hc hrx htx hr hq
    have hle := s.bodyOf_le qs .txb
    have hready : ¬(s.rxState ≠ .complete ∨ s.bodyLen .txb < s.h + 1) := by
      rw [htx.bodyLen]
      exact not_or.mpr ⟨not_not.mpr hc, by omega⟩
    change execDecrsp s = _
    rw [execDecrsp, if_neg (ne_true_of_eq_false (State.receiving_of_complete hc)), if_neg hready,
      hrx.responseFields htx hr (by omega), withRead_some]
    rfl
  · intro s hr hc
    change execDecrsp s = refuse .sequence s
    rw [execDecrsp, if_neg (ne_true_of_eq_false hr), if_pos hc]

/-! ## CHKQTY -/

section
variable {s : State} {w : Byte} {width : Width} {rs qs : List Byte}

/-- CHKQTY past the refusals that look at no frame (42_predict_decode R166). -/
theorem execChkqty_of_complete (hw : widthOf w = some width) (hc : s.rxState = .complete)
    (h1 : s.h + 1 ≤ s.bodyLen .txb) :
    execChkqty w s =
      if s.rxResult = .remoteException then
        withRead (s.byteAt .rxb (s.h + 1)) fun code => finishCommand .remoteException (s.setR0 (code.setWidth 32))
      else
        withRead (s.byteAt .txb s.h) fun f =>
          if (fclass f).isRead = false then finishCommand .ok (s.setR0 0#32)
          else if s.bodyLen .txb < s.h + 5 then refuse .invalidData s
          else withRead (s.be16At .txb (s.h + 3)) fun n => s.checkCount (fclass f) width n := by
  have hready : ¬(s.rxState ≠ .complete ∨ s.bodyLen .txb < s.h + 1) :=
    not_or.mpr ⟨not_not.mpr hc, Nat.not_lt.mpr h1⟩
  simp only [execChkqty, hw]
  rw [if_neg (ne_true_of_eq_false (State.receiving_of_complete hc)), if_neg hready]

/-- CHKQTY on a response without exception goes by the class of the request's function byte (42_predict_decode R166). -/
theorem State.Holds.execChkqty_eq (htx : s.Holds .txb qs) (hw : widthOf w = some width) (hc : s.rxState = .complete)
    (he : s.rxResult ≠ .remoteException) (h1 : s.h + 1 ≤ s.bodyOf qs .txb) :
    execChkqty w s =
      if (fclass (qs.getD s.h 0#8)).isRead = false then finishCommand .ok (s.setR0 0#32)
      else if s.bodyOf qs .txb < s.h + 5 then refuse .invalidData s
      else s.checkCount (fclass (qs.getD s.h 0#8)) width (field16 qs (s.h + 3)) := by
  have hle := s.bodyOf_le qs .txb
  rw [execChkqty_of_complete hw hc (by rwa [htx.bodyLen]), if_neg he, htx.byteAt_getD (by omega), withRead_some,
    htx.bodyLen]
  refine ite_congr rfl (fun _ => rfl) fun _ => ite_congr rfl (fun _ => rfl) fun h5 => ?_
  rw [htx.be16At (by omega), withRead_some]

theorem State.Holds.execChkqty_read (htx : s.Holds .txb qs) (hw : widthOf w = some width) (hc : s.rxState = .complete)
    (he : s.rxResult ≠ .remoteException) {c : FClass} (hcls : fclass (qs.getD s.h 0#8) = c) (hr : c.isRead = true)
    (h5 : s.h + 5 ≤ s.bodyOf qs .txb) : execChkqty w s = s.checkCount c width (field16 qs (s.h + 3)) := by
  rw [htx.execChkqty_eq hw hc he (by omega), hcls, if_neg (ne_false_of_eq_true hr), if_neg (Nat.not_lt.mpr h5)]

/-- The comparison with the response's byte count, which the body must have (42_predict_decode R166). -/
theorem State.Holds.checkCount_eq (hrx : s.Holds .rxb rs) {c : FClass}
    (hs : ¬(c = .rdRegs ∧ width.supported = false)) (n : Half) :
    s.checkCount c width n =
      .next
        (if s.h + 2 ≤ s.bodyOf rs .rxb ∧ (rs.getD (s.h + 1) 0#8).toNat = readByteCount c width n.toNat then
          { s with r0 := BitVec.ofNat 32 n.toNat, sta := .ok }
        else { s with sta := .invalidData }) := by
  have hle := s.bodyOf_le rs .rxb
  rw [State.checkCount, if_neg hs, hrx.bodyLen, BitVec.ofNat_toNat]
  by_cases h2 : s.bodyOf rs .rxb < s.h + 2
  · rw [if_pos h2, if_neg (by omega)]
    rfl
  · rw [if_neg h2, hrx.byteAt_getD (by omega), withRead_some]
    by_cases hn : (rs.getD (s.h + 1) 0#8).toNat = readByteCount c width n.toNat
    · rw [if_neg (not_not.mpr hn), if_pos ⟨Nat.not_lt.mp h2, hn⟩]
      rfl
    · rw [if_pos hn, if_neg (fun hx => hn hx.2)]
      rfl

end

/-- Settles O31: the exception first, then the request's class, then the count, which a register read compares for the
decoded widths alone. -/
theorem chkqtyCommand : Obligations.ChkqtyCommand := by
  refine ⟨?_, ?_, fun s w hw => exec_eq_refuse_of_not_wellFormed s (legalWidth_eq_false hw),
    fun s w hw hr => execChkqty_busy hr (decide_eq_true hw), ?_⟩
  · intro s w rs hw hc h1 he hrx h2
    obtain ⟨width, hwidth, -⟩ := widthOf_spec w hw
    change execChkqty w s = finishCommand .remoteException (s.setR0 ((rs.getD (s.h + 1) 0#8).setWidth 32))
    rw [execChkqty_of_complete hwidth hc h1, if_pos he, hrx.byteAt_getD (by omega), withRead_some]
  · rintro s w rs qs n hw hc he hrx htx h1 rfl
    obtain ⟨width, hwidth, hbpv, hsup⟩ := widthOf_spec w hw
    have hexec := htx.execChkqty_eq hwidth hc he h1
    refine ⟨fun hf => ?_, fun hf h5 => ?_, fun hf h5 => ?_, fun hf h5 => ?_⟩
    · rw [← isRead_fclass_iff, Bool.not_eq_true] at hf
      exact hexec.trans (if_pos hf)
    · rw [← isRead_fclass_iff] at hf
      rw [if_neg (ne_false_of_eq_true hf), if_pos h5] at hexec
      exact hexec
    · rw [← readByteCount_rdBits width]
      exact (htx.execChkqty_read hwidth hc he ((fclass_rdBits_iff _).mpr hf) rfl h5).trans
        (hrx.checkCount_eq (by simp) _)
    · have hread := htx.execChkqty_read hwidth hc he ((fclass_rdRegs_iff _).mpr hf) rfl h5
      refine hread.trans ?_
      by_cases h6 : 6 ≤ w.toNat
      · have hunsup : width.supported = false := hsup.trans (decide_eq_false (by omega))
        rw [if_pos h6, State.checkCount, if_pos ⟨rfl, hunsup⟩]
        rfl
      · have hdecoded : width.supported = true := hsup.trans (decide_eq_true (by omega))
        rw [if_neg h6, hrx.checkCount_eq (by simp [hdecoded]), readByteCount_rdRegs, hbpv]
  · intro s w hw hr hc
    obtain ⟨width, hwidth, -⟩ := widthOf_spec w hw
    change execChkqty w s = refuse .sequence s
    simp only [execChkqty, hwidth]
    rw [if_neg (ne_true_of_eq_false hr), if_pos hc]

/-! ## UNPACK -/

theorem toNat_append_eq {m n : Nat} (x : BitVec m) (y : BitVec n) : (x ++ y).toNat = x.toNat * 2 ^ n + y.toNat := by
  rw [BitVec.toNat_append, ← Nat.shiftLeft_add_eq_or_of_lt y.isLt, Nat.shiftLeft_eq]

theorem assemble_one (a : Byte) : assemble [a] = a.toNat := by simp [assemble]

theorem assemble_two (a b : Byte) : assemble [a, b] = (a ++ b : Half).toNat := by
  rw [toNat_append_eq]
  simp [assemble]

theorem assemble_four (a b c d : Byte) : assemble [a, b, c, d] = ((a ++ b : Half) ++ (c ++ d : Half)).toNat := by
  simp only [toNat_append_eq, assemble, List.foldl]
  omega

/-- A stretch of a frame, byte by byte. -/
theorem take_drop_eq_map {bs : List Byte} {i n : Nat} (h : i + n ≤ bs.length) :
    (bs.drop i).take n = (List.range n).map fun k => bs.getD (i + k) 0#8 := by
  apply List.ext_getElem
  · rw [List.length_take, List.length_drop, List.length_map, List.length_range]
    omega
  · intro k hk hk'
    rw [List.length_map, List.length_range] at hk'
    rw [List.getElem_map, List.getElem_range, List.getElem_take, List.getElem_drop, List.getD_eq_getElem?_getD,
      List.getElem?_eq_getElem (by omega), Option.getD_some]

section
variable {bs : List Byte} {off : Nat}

theorem assemble_take_one (h : off + 1 ≤ bs.length) :
    assemble ((bs.drop off).take 1) = (bs.getD off 0#8).toNat := by
  rw [take_drop_eq_map h]
  exact assemble_one _

theorem assemble_take_two (h : off + 2 ≤ bs.length) : assemble ((bs.drop off).take 2) = (field16 bs off).toNat := by
  rw [take_drop_eq_map h]
  exact assemble_two _ _

theorem assemble_take_four (h : off + 4 ≤ bs.length) :
    assemble ((bs.drop off).take 4) = (field16 bs off ++ field16 bs (off + 2)).toNat := by
  rw [take_drop_eq_map h]
  exact assemble_four _ _ _ _

end

theorem extend32_signed {n : Nat} (v : BitVec n) : extend32 true n v.toNat = v.signExtend 32 := by
  rw [extend32, if_pos rfl, BitVec.ofNat_toNat, BitVec.setWidth_eq]

theorem extend32_unsigned {n : Nat} (v : BitVec n) : extend32 false n v.toNat = v.setWidth 32 :=
  BitVec.ofNat_toNat 32 v

/-- The value of width code `w` at `off` of the frame `bs` (42_predict_decode R167). -/
def valueAt (w : Byte) (bs : List Byte) (off : Nat) : Word :=
  if w = 0#8 then (bs.getD off 0#8).signExtend 32
  else if w = 1#8 then (bs.getD off 0#8).setWidth 32
  else if w = 2#8 then (field16 bs off).signExtend 32
  else if w = 3#8 then (field16 bs off).setWidth 32
  else field16 bs off ++ field16 bs (off + 2)

theorem decodedWidth_cases : ∀ w : Byte, w.toNat ≤ 5 →
    w = 0#8 ∨ w = 1#8 ∨ w = 2#8 ∨ w = 3#8 ∨ w = 4#8 ∨ w = 5#8 := by decide +kernel

/-- UNPACK's value is the bytes' big-endian assembly, extended as the width says (42_predict_decode R167). -/
theorem extend32_assemble {w : Byte} {width : Width} {bs : List Byte} {off : Nat} (hw : w.toNat ≤ 5)
    (hwidth : widthOf w = some width) (h : off + bpv width ≤ bs.length) :
    extend32 width.signed (8 * bpv width) (assemble ((bs.drop off).take (bpv width))) = valueAt w bs off := by
  rcases decodedWidth_cases w hw with rfl | rfl | rfl | rfl | rfl | rfl <;> cases hwidth
  · exact (congrArg (extend32 true 8) (assemble_take_one h)).trans (extend32_signed _)
  · exact (congrArg (extend32 false 8) (assemble_take_one h)).trans (extend32_unsigned _)
  · exact (congrArg (extend32 true 16) (assemble_take_two h)).trans (extend32_signed _)
  · exact (congrArg (extend32 false 16) (assemble_take_two h)).trans (extend32_unsigned _)
  · exact (congrArg (extend32 false 32) (assemble_take_four h)).trans
      ((extend32_unsigned _).trans (BitVec.setWidth_eq _))
  · exact (congrArg (extend32 false 32) (assemble_take_four h)).trans
      ((extend32_unsigned _).trans (BitVec.setWidth_eq _))

section
variable {s : State} {w : Byte} {width : Width} {rs : List Byte}

/-- UNPACK past the refusals that look at no frame but for the width (42_predict_decode R168). -/
theorem execUnpack_of_complete (hw : widthOf w = some width) (hc : s.rxState = .complete) (hok : s.rxResult = .ok)
    (idx : Half) :
    execUnpack w idx s =
      if width.supported = false then refuse .unsupportedWidth s else s.unpackValue width idx.toNat := by
  have hready : ¬(s.rxState ≠ .complete ∨ s.rxResult ≠ .ok) := not_or.mpr ⟨not_not.mpr hc, not_not.mpr hok⟩
  simp only [execUnpack, hw]
  rw [if_neg (ne_true_of_eq_false (State.receiving_of_complete hc)), if_neg hready]

/-- UNPACK's bounds: the byte count is in the body, and the value inside both (42_predict_decode R168). -/
theorem State.Holds.unpackValue_eq (hrx : s.Holds .rxb rs) (idx : Nat) :
    s.unpackValue width idx =
      if s.bodyOf rs .rxb < s.h + 2 ∨ (rs.getD (s.h + 1) 0#8).toNat < bpv width * (idx + 1) ∨
          s.bodyOf rs .rxb < s.h + 2 + bpv width * idx + bpv width then refuse .range s
      else
        finishCommand .ok
          (s.setR0 (extend32 width.signed (8 * bpv width)
            (assemble ((rs.drop (s.h + 2 + bpv width * idx)).take (bpv width))))) := by
  have hle := s.bodyOf_le rs .rxb
  rw [State.unpackValue, hrx.bodyLen]
  by_cases h2 : s.bodyOf rs .rxb < s.h + 2
  · rw [if_pos h2, if_pos (.inl h2)]
  · rw [if_neg h2, hrx.byteAt_getD (by omega), withRead_some]
    refine ite_congr (by simp only [h2, false_or]) (fun _ => rfl) fun hin => ?_
    obtain ⟨-, -, hend⟩ := by simpa only [not_or] using hin
    rw [hrx.bytesAt (by omega), withRead_some]

/-- UNPACK with a decoded width code on a complete OK response (42_predict_decode R168). -/
theorem State.Holds.execUnpack_eq (hrx : s.Holds .rxb rs) (hw : w.toNat ≤ 5) (hc : s.rxState = .complete)
    (hok : s.rxResult = .ok) (idx : Half) :
    execUnpack w idx s =
      if s.bodyOf rs .rxb < s.h + 2 ∨ (rs.getD (s.h + 1) 0#8).toNat < bytesPerValue w * (idx.toNat + 1) ∨
          s.bodyOf rs .rxb < s.h + 2 + bytesPerValue w * idx.toNat + bytesPerValue w then refuse .range s
      else finishCommand .ok (s.setR0 (valueAt w rs (s.h + 2 + bytesPerValue w * idx.toNat))) := by
  have hle := s.bodyOf_le rs .rxb
  obtain ⟨width, hwidth, hbpv, hsup⟩ := widthOf_spec w (by omega)
  rw [execUnpack_of_complete hwidth hc hok, if_neg (by simp [hsup, hw]), hrx.unpackValue_eq, ← hbpv]
  refine ite_congr rfl (fun _ => rfl) fun hin => ?_
  obtain ⟨-, -, hend⟩ := by simpa only [not_or] using hin
  rw [extend32_assemble hw hwidth (by omega)]

end

/-- Settles O32: the bounds and the value for a decoded width, and the refusals before them in the rule's order. -/
theorem unpackCommand : Obligations.UnpackCommand := by
  refine ⟨?_, fun s w idx hw => exec_eq_refuse_of_not_wellFormed s (legalWidth_eq_false hw),
    fun s w idx hw hr => execUnpack_busy hr idx (decide_eq_true hw), ?_, ?_, ?_⟩
  · rintro s w idx rs off hw hc hok hrx h2 hcount rfl hend
    exact (hrx.execUnpack_eq hw hc hok idx).trans (if_neg (by omega))
  · intro s w idx hw hr hc
    obtain ⟨width, hwidth, -⟩ := widthOf_spec w hw
    change execUnpack w idx s = refuse .sequence s
    simp only [execUnpack, hwidth]
    rw [if_neg (ne_true_of_eq_false hr), if_pos hc]
  · intro s w idx h6 hw hc hok
    obtain ⟨width, hwidth, -, hsup⟩ := widthOf_spec w hw
    have hunsup : width.supported = false := hsup.trans (decide_eq_false (by omega))
    exact (execUnpack_of_complete hwidth hc hok idx).trans (if_pos hunsup)
  · intro s w idx rs hw hc hok hrx hout
    exact (hrx.execUnpack_eq hw hc hok idx).trans (if_pos hout)

end Sys2Proof.Machine
end

section
/-!
PROOFS. The family 43_receiver: what RXFIX, RXUND (R193, R194), the bytes that arrive (R202 to R204), the transport's
conditions (R205, R206, R210) and TICK (R207, R208) do, that transport items wait for a receive (R195), and whole
receives.
-/

namespace Sys2Proof.Machine

/-! ## The commands that arm a receive, and the transport's conditions -/

/-- Settles O33: the test for BUSY, then the range of the length. -/
theorem rxfixCommand : Obligations.RxfixCommand := by
  refine ⟨fun s e hr hmin hmax => ?_, fun s e hr he => ?_, fun s e hr => if_pos hr⟩
  · have hin : ¬(e.toNat < Config.excLen s.mode ∨ s.maxAdu < e.toNat) := by omega
    exact (if_neg (by simp [hr])).trans (if_neg hin)
  · exact (if_neg (by simp [hr])).trans (if_pos he)

/-- Settles O34: the test for BUSY, then the arming. -/
theorem rxundCommand : Obligations.RxundCommand :=
  ⟨fun s hr => if_neg (by simp [hr]), fun s hr => if_pos hr⟩

/-- Outside the receiving states no event of the transport is enabled (43_receiver R195). -/
theorem exec_transport_refused {i : Instr} {s : State} (hp : i.port = .transport) (hr : s.receiving = false) :
    exec i s = .refused .eventNotEnabled := by
  cases hb : brings i with
  | some d => exact (exec_of_brings hb s).trans (if_pos hr)
  | none =>
    cases i with
    | evClosed => exact if_pos hr
    | evFail => exact if_pos hr
    | evIntr => exact if_pos hr
    | _ => simp [Instr.port, brings] at hp hb

/-- Settles O40: one test for a receive in progress, then the fault or the re-armed wait. -/
theorem transportConditions : Obligations.TransportConditions := by
  refine ⟨fun s hr => ?_, fun s i hr hi => exec_transport_refused ?_ hr⟩
  · have hen : ¬s.receiving = false := by simp [hr]
    exact ⟨if_neg hen, if_neg hen, if_neg hen⟩
  · simp only [List.mem_cons, List.not_mem_nil, or_false] at hi
    rcases hi with rfl | rfl | rfl <;> rfl

/-! ## Taking deliveries -/

/-- The delivery that is enabled is found behind transport items that are not (43_receiver R195). -/
theorem nextDelivery_append_cons {r : Bool} {skipped : List PortWord} {p : PortWord} (rest : List PortWord)
    (hs : ∀ q ∈ skipped, isTransport q = true) (hr : skipped = [] ∨ r = false) (hp : r = true ∨ isTransport p = false) :
    nextDelivery r (skipped ++ p :: rest) = some (p, skipped ++ rest) := by
  induction skipped with
  | nil => exact if_pos (by simpa using hp)
  | cons q skipped ih =>
    have hrf : r = false := by simpa using hr
    have hq : isTransport q = true := hs q (by simp)
    rw [List.cons_append, nextDelivery, if_neg (by simp [hrf, hq]), ih (fun q hm => hs q (by simp [hm])) (.inr hrf)]
    rfl

theorem step_refused_of_nothing_enabled {s : State} {items : List PortWord} (hl : s.later = .again items)
    (hi : nextDelivery s.receiving s.inbox = none) (ha : nextDelivery s.receiving items = none) :
    step s = .refused .noEnabledEvent := by
  simp only [step, runNext, State.nextEvent, hi, hl, ha]

/-- Settles O7: the meanings of the transport's items are refused, and the step finds what stands behind them. -/
theorem transportItemsWaitForAReceive : Obligations.TransportItemsWaitForAReceive := by
  refine ⟨fun i s hp hr => exec_transport_refused hp hr, fun r skipped p rest hs hr hp => ?_,
    fun s items hl hall hr => ?_⟩
  · exact nextDelivery_append_cons rest (fun q hq => decide_eq_true (hs q hq)) hr (hp.imp_right decide_eq_false)
  · have hnone : ∀ ps, (∀ q ∈ ps, q ∈ s.inbox ++ items) → nextDelivery s.receiving ps = none := by
      intro ps hsub
      refine nextDelivery_eq_none_iff.mpr ⟨fun q hq => decide_eq_true (hall q (hsub q hq)), ?_⟩
      rcases hr with hr | hr
      · exact .inr hr
      · exact .inl (List.eq_nil_iff_forall_not_mem.mpr fun q hq => by simpa [hr] using hsub q hq)
    exact step_refused_of_nothing_enabled hl (hnone _ (by simp +contextual)) (hnone _ (by simp +contextual))

/-- One delivery is taken, and no transport item while not receiving. -/
theorem nextDelivery_rest {r : Bool} {ps rest : List PortWord} {p : PortWord}
    (h : nextDelivery r ps = some (p, rest)) :
    rest.length + 1 = ps.length ∧ (r = false → transportItems rest = transportItems ps) := by
  obtain ⟨skipped, tail, rfl, rfl, -, -, hp⟩ := nextDelivery_eq_some h
  refine ⟨by simp; omega, fun hr => ?_⟩
  have hpf : isTransport p = false := by simpa [hr] using hp
  simp [transportItems, hpf]

/-! ## What the host's commands leave alone -/

/-- The receiver's side, the mode and what the environment has yet to deliver are the same (60_exceptions R263). -/
def KeepsReceiver (s t : State) : Prop := SameRx s t ∧ t.mode = s.mode ∧ SameEnvironment s t

theorem KeepsReceiver.sameEnvironment {s t : State} (h : KeepsReceiver s t) : SameEnvironment s t := h.2.2

theorem KeepsReceiver.refl (s : State) : KeepsReceiver s s :=
  ⟨⟨rfl, rfl, rfl, rfl, rfl, rfl, rfl, rfl, rfl, rfl⟩, rfl, ⟨rfl, rfl⟩⟩

theorem Refuses.keepsReceiver {s t : State} (h : Refuses s t) : KeepsReceiver s t := by
  rw [h.eq_with_sta]
  exact .refl s

/-- The commands that read a value into `r[0]` leave the receiver alone. -/
theorem keepsReceiver_of_setR0 {s t : State} (h : Refuses s t ∨ ∃ v, t = (s.setR0 v).done .ok) :
    KeepsReceiver s t := by
  rcases h with hr | ⟨v, rfl⟩
  · exact hr.keepsReceiver
  · exact .refl s

/-- Every host command but RXFIX, RXUND and CFGW leaves the receiver alone (60_exceptions R263). -/
theorem exec_host_keepsReceiver {i : Instr} {s t : State} (hp : i.port = .host) (hf : ∀ e, i ≠ .rxfix e)
    (hu : i ≠ .rxund) (hc : ∀ reg value, i ≠ .cfgw reg value) (h : exec i s = .next t) : KeepsReceiver s t := by
  cases i with
  | nop => exact execNop_eq_next h ▸ .refl s
  | txclr => exact execTxclr_eq_next h ▸ .refl s
  | cfgw reg value => exact absurd rfl (hc reg value)
  | cfgr reg => exact keepsReceiver_of_setR0 (execCfgr_eq_next h)
  | crc16 b len => exact keepsReceiver_of_setR0 (execCrc16_eq_next h)
  | crcv b len => exact keepsReceiver_of_setR0 (execCrcv_eq_next h)
  | pushb byte => exact (execPushb_eq_next h).elim (·.keepsReceiver) fun ⟨_, _, ht⟩ => ht ▸ .refl s
  | ldb b idx => exact keepsReceiver_of_setR0 (execLdb_eq_next h)
  | bldreq slave f addr count => exact (execBldreq_eq_next h).elim (·.keepsReceiver) fun ht => ht ▸ .refl s
  | bldrsp f => exact (execBldrsp_eq_next h).elim (·.keepsReceiver) fun ⟨_, _, _, ht⟩ => ht ▸ .refl s
  | bldexc code => exact (execBldexc_eq_next h).elim (·.keepsReceiver) fun ⟨_, _, _, _, ht⟩ => ht ▸ .refl s
  | final =>
    rcases execFinal_eq_next h with hr | ⟨-, -, -, ⟨-, r, rfl⟩ | ⟨-, rfl⟩⟩
    · exact hr.keepsReceiver
    · exact .refl s
    · exact .refl s
  | predict w => exact (execPredict_eq_next h).elim (·.keepsReceiver) fun ⟨_, ht⟩ => ht ▸ .refl s
  | decreq b => exact (execDecreq_eq_next h).elim (·.keepsReceiver) fun ⟨_, ht⟩ => ht ▸ .refl s
  | decrsp => exact (execDecrsp_eq_next h).elim (·.keepsReceiver) fun ⟨_, ht⟩ => ht ▸ .refl s
  | chkqty w => exact (execChkqty_eq_next h).elim (·.keepsReceiver) fun ⟨_, _, _, ht⟩ => ht ▸ .refl s
  | unpack w idx => exact keepsReceiver_of_setR0 (execUnpack_eq_next h)
  | rxfix e => exact absurd rfl (hf e)
  | rxund => exact absurd rfl hu
  | _ => nomatch hp

/-- A write of a configuration register other than MODE leaves the receiver alone. -/
theorem State.configure_keepsReceiver (s : State) (value : Word) {target : CfgReg} (h : ∀ m, target ≠ .mode m) :
    KeepsReceiver s (s.configure value target) := by
  cases target with
  | mode m => exact absurd rfl (h m)
  | tFirst => exact .refl s
  | tEof => exact .refl s
  | tResp => exact .refl s

theorem State.configure_sameEnvironment (s : State) (value : Word) (target : CfgReg) :
    SameEnvironment s (s.configure value target) := by
  cases target <;> exact ⟨rfl, rfl⟩

/-- No instruction touches what the environment has yet to deliver. -/
theorem exec_sameEnvironment {i : Instr} {s t : State} (h : exec i s = .next t) : SameEnvironment s t := by
  have hevent : i.port = .transport ∨ i.port = .time → SameEnvironment s t := by
    intro hp
    obtain ⟨-, -, -, -, henv⟩ := exec_event_onlyRx hp h
    exact henv
  cases hp : i.port with
  | transport => exact hevent (.inl hp)
  | time => exact hevent (.inr hp)
  | reset =>
    obtain rfl := Instr.eq_reset_of_port hp
    cases h
    exact ⟨rfl, rfl⟩
  | host =>
    cases i with
    | cfgw reg value =>
      exact (execCfgw_eq_next h).elim (·.keepsReceiver.sameEnvironment) fun ⟨_, target, _, ht⟩ =>
        ht ▸ s.configure_sameEnvironment value target
    | rxfix e =>
      rcases execRxfix_eq_next h with hr | ⟨-, rfl⟩ | ⟨-, -, -, rfl⟩
      · exact hr.keepsReceiver.sameEnvironment
      · exact ⟨rfl, rfl⟩
      · exact ⟨rfl, rfl⟩
    | rxund => exact (execRxund_eq_next h).elim (·.keepsReceiver.sameEnvironment) fun ⟨_, ht⟩ => ht ▸ ⟨rfl, rfl⟩
    | _ => exact (exec_host_keepsReceiver hp (by simp) (by simp) (by simp) h).sameEnvironment

/-- What a step runs, an instruction or the refusal of a malformed word, leaves the environment's fields as the event
taken left them. -/
theorem step_takes_event {s t : State} (h : step s = .next t) :
    ∃ p u, s.nextEvent = some (p, u) ∧ SameEnvironment u t := by
  obtain ⟨p, u, hn, ⟨i, -, h⟩ | ⟨-, rfl⟩⟩ := step_eq_next h
  · exact ⟨p, u, hn, exec_sameEnvironment h⟩
  · exact ⟨p, u, hn, rfl, rfl⟩

/-- Settles O60: of the three places the event can come from the hypotheses leave one, and what is run there does not
touch the environment's fields. -/
theorem stepTakesOneDelivery : Obligations.StepTakesOneDelivery := by
  intro s t h
  obtain ⟨p, u, hn, hin, hla⟩ := step_takes_event h
  rw [hin, hla]
  rcases State.nextEvent_eq_some hn with ⟨rest, hd, rfl⟩ | ⟨items, rest, hd, hl, hi, rfl⟩ | ⟨n, hd, hl, -, -, rfl⟩
  · obtain ⟨hlen, htr⟩ := nextDelivery_rest hd
    exact ⟨fun _ => ⟨hlen, rfl, htr⟩, by simp [hd], by simp [hd]⟩
  · obtain ⟨hlen, htr⟩ := nextDelivery_rest hi
    refine ⟨by simp [hd], fun items' _ hl' => ?_, by simp [hl]⟩
    obtain rfl : items = items' := by simpa [hl] using hl'
    refine ⟨by simp; omega, rfl, fun hr => ?_⟩
    rw [← htr hr]
    exact List.filter_append _ _
  · refine ⟨by simp [hd], by simp [hl], fun n' _ hl' => ?_⟩
    obtain rfl : n = n' := by simpa [hl] using hl'
    exact ⟨rfl, rfl⟩

theorem cfgRegOf_eq_mode {reg : Byte} {value : Word} {m : Mode} (h : cfgRegOf reg value = some (.mode m)) :
    reg = 0#8 := by
  unfold cfgRegOf at h
  split at h
  · assumption
  · split_ifs at h <;> simp at h

theorem State.receiving_of_terminal {s : State} (h : s.rxState = .complete ∨ s.rxState = .faulted) :
    s.receiving = false := by
  rcases h with h | h <;> rw [State.receiving, h]

/-- Settles O58: in a terminal state events are refused and a TICK does nothing; of the commands only those named do
not leave the receiver alone. -/
theorem terminalStateIsLeftOnlyByTheHost : Obligations.TerminalStateIsLeftOnlyByTheHost := by
  intro i s t hs h hne
  have hr := State.receiving_of_terminal hs
  have hkeep : ¬KeepsReceiver s t := by
    rintro ⟨⟨-, -, hst, hres, -⟩, -⟩
    exact hne.elim (absurd hst) (absurd hres)
  cases hp : i.port with
  | transport => simp [exec_transport_refused hp hr] at h
  | time =>
    cases i with
    | tick =>
      have hst : exec .tick s = .next s := if_pos hr
      obtain rfl : s = t := Host.Outcome.next.inj (hst.symm.trans h)
      exact absurd (.refl s) hkeep
    | _ => nomatch hp
  | reset => exact .inr (.inr (.inr (Instr.eq_reset_of_port hp)))
  | host =>
    cases i with
    | rxfix e => exact .inl ⟨e, rfl⟩
    | rxund => exact .inr (.inl rfl)
    | cfgw reg value =>
      rcases execCfgw_eq_next h with href | ⟨-, target, htarget, rfl⟩
      · exact absurd href.keepsReceiver hkeep
      · cases target with
        | mode m =>
          obtain rfl := cfgRegOf_eq_mode htarget
          exact .inr (.inr (.inl ⟨value, rfl⟩))
        | _ => exact absurd (s.configure_keepsReceiver value (by simp)) hkeep
    | _ => exact absurd (exec_host_keepsReceiver hp (by simp) (by simp) (by simp) h) hkeep

/-! ## Bytes that arrive -/

theorem State.Holds.rxLen {s : State} {bs : List Byte} (h : s.Holds .rxb bs) : s.rxLen.toNat = bs.length := h.1

/-- Acceptance of a frame long enough to end in a checksum (43_receiver R204). -/
theorem frameAccepted_iff {m : Mode} {bs : List Byte} (h2 : 2 ≤ bs.length) :
    FrameAccepted m bs ↔ m = .tcp ∨ crc16 (bs.take (bs.length - 2)) = field16 bs (bs.length - 2) := by
  rw [FrameAccepted, endsInCrc_iff h2]

/-- Settles O39: the two outcomes of `finish()` on the bytes in RXB. -/
theorem finishChecksTheFrame : Obligations.FinishChecksTheFrame := by
  intro s bs h hl
  have hmode := s.mode_lengths
  have hacc : FrameAccepted s.mode bs ↔ _ := frameAccepted_iff (by omega)
  refine ⟨fun hm hc => ⟨_, h.finish_rejected (by omega) ?_, rfl⟩,
    fun ha => h.finish_accepted (by omega) (by omega) (hacc.mpr ha)⟩
  rw [hacc]
  simp [hm, hc]

section
variable {i : Instr} {d : Byte} {s : State} {bs : List Byte} (hb : brings i = some d) (hr : s.receiving = true)
  (h : s.Holds .rxb bs) (hl : bs.length < 260)
include hb hr h hl

/-- A byte inside its segment is stored and nothing follows from it (43_receiver R202). -/
theorem State.Holds.exec_inside_segment (hn : 2 ≤ s.rxNeed.toNat) : exec i s = .next (s.storeByte d) := by
  rw [exec_of_brings hb, h.takeByte hr hl, if_neg (by omega)]

/-- The last byte of its segment is stored, and the receiver advances (43_receiver R202, R203). -/
theorem State.Holds.exec_segment_end (hn : s.rxNeed = 1#9) : exec i s = (s.storeByte d).advance := by
  rw [exec_of_brings hb, h.takeByte hr hl, if_pos (by simp [hn])]

end

/-- Settles O35: the byte is stored. -/
theorem byteInsideSegment : Obligations.ByteInsideSegment := by
  intro i d s bs hb hr h hl hn
  refine ⟨_, h.exec_inside_segment hb hr hl hn, ?_, h.storeByte hl d⟩
  rw [← h.rxLen]
  rfl

/-- The byte stored behind the header is the one at the function byte's place. -/
theorem getD_append_header {bs : List Byte} {n : Nat} (d : Byte) (h : bs.length = n) :
    (bs ++ [d]).getD n 0#8 = d := by simp [← h]

/-- Settles O36: `advance()` on the function byte; without extra header the total is known at once. -/
theorem functionByteArrives : Obligations.FunctionByteArrives := by
  intro i d s bs hb hs hn h hlen htot
  have hmode := s.mode_lengths
  have hfn := getD_append_header d hlen
  have hu : (s.storeByte d).Holds .rxb (bs ++ [d]) := h.storeByte (by omega) d
  have hf : (s.storeByte d).byteAt .rxb s.h = some d := by rw [hu.byteAt_getD (by simp [hlen]), hfn]
  have hadv := State.advance_awaitFunction (s := s.storeByte d) hs hf
  rw [h.exec_segment_end hb (s.receiving_iff.mpr (.inl hs)) (by omega) hn, hadv]
  refine ⟨fun hx => ?_, fun hx hm => ?_, fun hx hm => ?_⟩
  · rw [if_pos hx]
    refine ⟨_, rfl, ?_, State.holds_rxb_congr rfl rfl hu⟩
    simp only [State.storeByte, h.rxLen, hlen, htot]
  · obtain ⟨hh, hck, hmax⟩ := State.lengths_rtu hm
    have hck' : (s.storeByte d).ck = 2 := hck
    have hle : s.rxTotal.toNat + 2 ≤ s.maxAdu := by omega
    rw [if_neg (by omega), hck']
    refine ⟨_, State.lengthKnown_pos hle (by decide), ?_, State.holds_rxb_congr rfl rfl hu⟩
    simp only [State.storeByte, h.rxLen, hlen, htot, hh]
    rfl
  · obtain ⟨hh, hck, hmax⟩ := State.lengths_tcp hm
    obtain ⟨-, -, hplain⟩ := extraHeader_eq_zero d hx
    have hck' : (s.storeByte d).ck = 0 := hck
    have hle : s.rxTotal.toNat ≤ s.maxAdu := by omega
    have hl : s.h + s.ck ≤ (bs ++ [d]).length := by simp; omega
    have h1 : s.h < (bs ++ [d]).length := by simp; omega
    rw [if_neg (by omega), hck']
    refine ⟨_, State.Holds.lengthKnown_zero (State.holds_rxb_congr rfl rfl hu) hle hl h1 (.inl hm), ?_,
      State.holds_rxb_congr rfl rfl hu⟩
    rw [hh] at hfn
    simp only [State.storeByte, State.h, hm, Config.hdr, h.rxLen, hlen, hfn, if_neg (Nat.not_le.mpr hplain)]
    rfl

/-- Settles O37: `advance()` on the last extra header byte, by the total it finds. -/
theorem extraHeaderCompletes : Obligations.ExtraHeaderCompletes := by
  intro i d s bs p total hb hs hk hn h h1 hlen htot hp htotal
  have hmode := s.mode_lengths
  have hx := extraHeader_le (bs.getD s.h 0#8)
  have hlen' : (bs ++ [d]).length = bs.length + 1 := List.length_append
  have hu : (s.storeByte d).Holds .rxb (bs ++ [d]) := h.storeByte (by omega) d
  have hfn : (bs ++ [d]).getD s.h 0#8 = bs.getD s.h 0#8 := List.getD_append _ _ _ _ (by omega)
  have hxl : s.h + 1 + extraHeader ((bs ++ [d]).getD s.h 0#8) ≤ (bs ++ [d]).length := by
    rw [hfn]
    omega
  have hadv : (s.storeByte d).advance = (s.storeByte d).lengthKnown p := by
    rw [hp]
    exact hu.advance_unknown hs hk hxl
  have hsum : s.rxTotal.toNat + p = total := by omega
  rw [h.exec_segment_end hb (s.receiving_iff.mpr (.inr hs)) (by omega) hn, hadv]
  refine ⟨fun hover => ?_, fun hle hpos => ?_, fun hle hzero => ?_⟩
  · refine ⟨_, State.lengthKnown_over (hsum ▸ hover), ?_, State.holds_rxb_congr rfl rfl hu⟩
    simp only [State.storeByte, h.rxLen, hn, hsum]
    rfl
  · refine ⟨_, State.lengthKnown_pos (hsum ▸ hle) hpos, ?_, State.holds_rxb_congr rfl rfl hu⟩
    simp only [State.storeByte, h.rxLen, hsum]
  · have htcp : s.mode = .tcp := by
      rcases hmode with ⟨-, -, hck, -⟩ | ⟨htcp, -⟩
      · omega
      · exact htcp
    have hmax : s.rxTotal.toNat ≤ s.maxAdu := by omega
    have hl : s.h + s.ck ≤ (bs ++ [d]).length := by omega
    have hlt : s.h < (bs ++ [d]).length := by omega
    rw [hzero]
    refine ⟨_, hu.lengthKnown_zero hmax hl hlt (.inl htcp), ?_, State.holds_rxb_congr rfl rfl hu⟩
    rw [← hfn, ← h.rxLen]
    rfl

/-- Settles O38: `finish()` on the frame with its last byte. -/
theorem lastByteArrives : Obligations.LastByteArrives := by
  intro i d s bs hb hs hk hn h hl h260
  have hu : (s.storeByte d).Holds .rxb (bs ++ [d]) := h.storeByte h260 d
  have hlen' : (bs ++ [d]).length = bs.length + 1 := List.length_append
  have hl' : s.h + s.ck ≤ (bs ++ [d]).length := by omega
  have hlt : s.h < (bs ++ [d]).length := by omega
  have hadv : (s.storeByte d).advance = (s.storeByte d).finish := State.advance_known hs hk
  rw [h.exec_segment_end hb (s.receiving_iff.mpr (.inr hs)) h260 hn, hadv]
  refine ⟨fun ha => ⟨_, hu.finish_accepted hl' hlt ha, ?_, State.holds_rxb_congr rfl rfl hu⟩, fun ha => ?_⟩
  · rw [← h.rxLen]
    rfl
  · rw [hu.finish_rejected hl' ha]
    simp only [State.storeByte, hn]
    rfl

/-! ## The wait -/

/-- A TICK with at least two ticks left (43_receiver R207). -/
theorem exec_tick_down {s : State} (hr : s.receiving = true) (h : 2 ≤ s.rxTimer.toNat) :
    exec .tick s = .next { s with rxTimer := BitVec.ofNat 32 (s.rxTimer.toNat - 1) } := by
  have hsub : s.rxTimer - 1#32 = BitVec.ofNat 32 (s.rxTimer.toNat - 1) := by bv_omega
  rw [← hsub]
  exact execTick_down hr h

/-- Ticks before the wait's last only count down (43_receiver R207). -/
theorem runAll_ticks {s : State} {n : Nat} (hr : s.receiving = true) (hn : n < max s.rxTimer.toNat 1) :
    runAll (List.replicate n .tick) s = .next { s with rxTimer := BitVec.ofNat 32 (s.rxTimer.toNat - n) } := by
  induction n generalizing s with
  | zero => simp [runAll]
  | succ n ih =>
    have htimer : (BitVec.ofNat 32 (s.rxTimer.toNat - 1)).toNat = s.rxTimer.toNat - 1 := by
      rw [BitVec.toNat_ofNat, Nat.mod_eq_of_lt (by omega)]
    have hrun := ih (s := { s with rxTimer := BitVec.ofNat 32 (s.rxTimer.toNat - 1) }) hr (by
      rw [htimer]
      omega)
    rw [List.replicate_succ, runAll_cons _ (exec_tick_down hr (by omega)), hrun, htimer, Nat.sub_sub, Nat.add_comm 1 n]

/-- What `timeout()` leaves does not hang on the ticks left. -/
theorem State.timeout_of_rxTimer (s : State) (v : Word) : State.timeout { s with rxTimer := v } = s.timeout := rfl

theorem runAll_singleton (i : Instr) (s : State) : runAll [i] s = exec i s := by
  rw [runAll]
  cases exec i s <;> rfl

/-- Settles O41: all ticks but the last count down; the last finds one tick left, or the wait of 0 as it was armed. -/
theorem waitEndsAtTheLastTick : Obligations.WaitEndsAtTheLastTick := by
  refine ⟨fun s hr => if_pos hr, fun s hr h => exec_tick_down hr h, fun s n hr hn => runAll_ticks hr hn, fun s hr => ?_⟩
  obtain ⟨n, hn⟩ : ∃ n, max s.rxTimer.toNat 1 = n + 1 := ⟨_, (Nat.sub_add_cancel (Nat.le_max_right _ _)).symm⟩
  have hlast : ∀ v : Word, v.toNat ≤ 1 → exec .tick { s with rxTimer := v } = s.timeout :=
    fun v hv => execTick_last (s := { s with rxTimer := v }) hr hv
  have hleft : (BitVec.ofNat 32 (s.rxTimer.toNat - n)).toNat ≤ 1 := by
    rw [BitVec.toNat_ofNat, Nat.mod_eq_of_lt (by omega)]
    omega
  rw [hn, List.replicate_succ', runAll_append _ (runAll_ticks hr (by omega)), runAll_singleton, hlast _ hleft,
    hlast 1#32 (by decide)]

/-- Settles O42: `timeout()` by the mode of the receive and the frame an exception response would be. -/
theorem timeoutOutcomes : Obligations.TimeoutOutcomes := by
  refine ⟨fun s bs hr ht hk h hl => ?_, fun s hr ht hk => ?_⟩
  · have hmode := s.mode_lengths
    have hbad : s.mode = .rtu ∧ crc16 (bs.take 3) ≠ field16 bs 3 ↔ ¬FrameAccepted s.mode bs := by
      rw [frameAccepted_iff (by omega)]
      rcases hmode with ⟨hm, -, -, -, h5⟩ | ⟨hm, -⟩
      · simp [hm, hl.trans h5]
      · simp [hm]
    obtain ⟨b, hb, hacc⟩ := h.frameGood (by omega)
    have htick : exec .tick s = s.timeout := execTick_last hr ht
    rw [htick, State.timeout, if_pos ⟨hk, h.rxLen.trans hl⟩, hb, withRead_some, h.byteAt_getD (by omega), withRead_some]
    simp only [exceptionBit_eq, decide_eq_true_eq]
    cases b with
    | false =>
      have hna : ¬FrameAccepted s.mode bs := fun ha => absurd (hacc.mpr ha) (by decide)
      rw [if_pos rfl, if_pos (hbad.mpr hna)]
      rfl
    | true =>
      rw [if_neg (by decide), if_neg fun hc => hbad.mp hc (hacc.mp rfl), apply_ite Host.Outcome.next]
      rfl
  · have hno : ¬(s.rxKind = .fixed ∧ s.rxLen.toNat = Config.excLen s.mode) := by
      rintro ⟨hf, hl⟩
      simp [hf, hl] at hk
    exact (execTick_last hr ht).trans (if_neg hno)

/-! ## Whole receives -/

/-- How a receive of the whole frame ends in the mode: COMPLETE with the frame in RXB, or, where its checksum is bad,
FAULTED with INVALID_CRC and no byte (43_receiver R204). -/
def EndsReceive (m : Mode) (frame : List Byte) (t : State) : Prop :=
  (FrameAccepted m frame → t.rxState = .complete ∧ t.Holds .rxb frame ∧
    t.rxResult = (if 0x80 ≤ (frame.getD (Config.hdr m) 0#8).toNat then .remoteException else .ok)) ∧
  (¬FrameAccepted m frame → t.rxState = .faulted ∧ t.rxResult = .invalidCrc ∧ t.Holds .rxb [])

/-- From `s` on, the bytes `cs` arriving one by one end the receive of the whole frame. -/
def Receives (s : State) (cs frame : List Byte) : Prop :=
  ∃ t, runAll (cs.map Instr.evByte) s = .next t ∧ EndsReceive s.mode frame t

theorem Receives.of_runAll {s t : State} {cs cs' frame : List Byte} (hrun : runAll (cs.map Instr.evByte) s = .next t)
    (hmode : t.mode = s.mode) (h : Receives t cs' frame) : Receives s (cs ++ cs') frame := by
  obtain ⟨u, hu, hend⟩ := h
  exact ⟨u, by rw [List.map_append, runAll_append _ hrun, hu], hmode ▸ hend⟩

theorem Receives.of_exec {s t : State} {d : Byte} {cs frame : List Byte} (hexec : exec (.evByte d) s = .next t)
    (hmode : t.mode = s.mode) (h : Receives t cs frame) : Receives s (d :: cs) frame :=
  .of_runAll (cs := [d]) ((runAll_singleton _ _).trans hexec) hmode h

theorem Receives.of_exec_last {s t : State} {d : Byte} {frame : List Byte} (hexec : exec (.evByte d) s = .next t)
    (h : EndsReceive s.mode frame t) : Receives s [d] frame :=
  ⟨t, (runAll_singleton _ _).trans hexec, h⟩

/-- Bytes arriving touch the receiver's side alone. -/
theorem runAll_evByte_onlyRx {s t : State} {cs : List Byte} (h : runAll (cs.map Instr.evByte) s = .next t) :
    OnlyRx s t := by
  induction cs generalizing s with
  | nil =>
    cases h
    simp [OnlyRx, SameResults, SameConfig, SameTx, SameEnvironment]
  | cons c cs ih =>
    cases he : exec (.evByte c) s with
    | next u =>
      rw [List.map_cons, runAll_cons _ he] at h
      exact (exec_event_onlyRx (.inl rfl) he).trans (ih h)
    | fault e => simp [runAll, he] at h
    | refused e => simp [runAll, he] at h

theorem State.maxAdu_le (s : State) : s.maxAdu ≤ 260 := by
  have hmode := s.mode_lengths
  omega

theorem exists_eq_append_cons {cs : List Byte} {n : Nat} (h : n < cs.length) :
    ∃ (c₁ : List Byte) (d : Byte) (c₂ : List Byte), cs = c₁ ++ d :: c₂ ∧ c₁.length = n :=
  ⟨cs.take n, cs[n], cs.drop (n + 1), by rw [← List.drop_eq_getElem_cons h, List.take_append_drop],
    List.length_take_of_le (by omega)⟩

section
variable {s : State} {bs cs : List Byte} (h : s.Holds .rxb bs)
include h

/-- Bytes inside a segment are stored in order, each counted off what is needed (43_receiver R202). -/
theorem State.Holds.runAll_segment (hr : s.receiving = true) (hl : bs.length + cs.length ≤ 260)
    (hn : cs.length < s.rxNeed.toNat) :
    ∃ t, runAll (cs.map Instr.evByte) s = .next t ∧
      t = { s with
            rxb := t.rxb, rxLen := t.rxLen, rxNeed := toLen (s.rxNeed.toNat - cs.length), rxTimer := t.rxTimer,
            rxReload := t.rxReload } ∧
      t.Holds .rxb (bs ++ cs) := by
  induction cs generalizing s bs with
  | nil => exact ⟨s, rfl, by simp [toLen_toNat], by simpa using h⟩
  | cons c cs ih =>
    rw [List.length_cons] at hl hn
    have hneed : (s.storeByte c).rxNeed.toNat = s.rxNeed.toNat - 1 := toNat_toLen (by omega)
    have hexec := h.exec_inside_segment (i := .evByte c) rfl hr (by omega) (by omega)
    obtain ⟨t, hrun, ht, hb⟩ := ih (h.storeByte (by omega) c) hr (by simp; omega) (by omega)
    refine ⟨t, by rw [List.map_cons, runAll_cons _ hexec, hrun], ht.trans ?_, by simpa using hb⟩
    rw [hneed, Nat.sub_sub, Nat.add_comm 1]
    rfl

/-- All but the last byte of a segment (43_receiver R202). -/
theorem State.Holds.runAll_to_last (hr : s.receiving = true) (hl : bs.length + cs.length ≤ 260)
    (hn : s.rxNeed.toNat = cs.length + 1) :
    ∃ t, runAll (cs.map Instr.evByte) s = .next t ∧
      t = { s with
            rxb := t.rxb, rxLen := t.rxLen, rxNeed := 1#9, rxTimer := t.rxTimer, rxReload := t.rxReload } ∧
      t.Holds .rxb (bs ++ cs) := by
  have hone : toLen (s.rxNeed.toNat - cs.length) = 1#9 := by rw [hn, Nat.add_sub_cancel_left]; rfl
  have hseg := h.runAll_segment hr hl (by omega)
  rwa [hone] at hseg

/-- With the total known, the bytes still needed end the receive (43_receiver R204). -/
theorem State.Holds.receives_known (hs : s.rxState = .awaitRemainder) (hk : s.rxKnown = true) (hne : cs ≠ [])
    (hn : s.rxNeed.toNat = cs.length) (hmin : s.h + s.ck < (bs ++ cs).length) (hmax : (bs ++ cs).length ≤ 260) :
    Receives s cs (bs ++ cs) := by
  obtain ⟨init, d, rfl⟩ : ∃ init d, cs = init ++ [d] := ⟨_, _, (List.dropLast_append_getLast hne).symm⟩
  simp only [List.length_append, List.length_singleton] at hn hmin hmax
  obtain ⟨t, hrun, ht, hb⟩ := h.runAll_to_last (cs := init) (s.receiving_iff.mpr (.inr hs)) (by omega) hn
  have hmode : t.mode = s.mode := (congrArg State.mode ht :)
  obtain ⟨hh, hck, -⟩ := State.lengths_congr hmode
  obtain ⟨hgood, hbad⟩ := lastByteArrives (.evByte d) d t (bs ++ init) rfl ((congrArg State.rxState ht).trans hs)
    ((congrArg State.rxKnown ht).trans hk) (congrArg State.rxNeed ht) hb (by simp; omega) (by simp; omega)
  rw [← List.append_assoc]
  refine .of_runAll hrun hmode ?_
  by_cases ha : FrameAccepted t.mode (bs ++ init ++ [d])
  · obtain ⟨u, hexec, hu, hub⟩ := hgood ha
    exact .of_exec_last hexec ⟨fun _ => ⟨congrArg State.rxState hu, hub, congrArg State.rxResult hu⟩, absurd ha⟩
  · exact .of_exec_last (hbad ha) ⟨fun hx => absurd hx ha, fun _ => ⟨rfl, rfl, State.holds_rxb_nil rfl rfl⟩⟩

end

/-- Settles O45: RXFIX arms the receive with the total known, and the bytes of the frame end it. -/
theorem fixedLengthReceiveOfWholeFrame : Obligations.FixedLengthReceiveOfWholeFrame := by
  intro s frame hr hmin hmax
  have hmode := s.mode_lengths
  have hlen : (BitVec.ofNat 32 frame.length).toNat = frame.length := by
    rw [BitVec.toNat_ofNat, Nat.mod_eq_of_lt (by omega)]
  obtain ⟨harm, -⟩ := rxfixCommand
  have hexec : exec (.rxfix (BitVec.ofNat 32 frame.length)) s = .next ((s.armFixed frame.length).done .ok) := by
    have h := harm s (BitVec.ofNat 32 frame.length) hr (hlen.symm ▸ hmin) (hlen.symm ▸ hmax)
    rwa [hlen] at h
  have hb : ((s.armFixed frame.length).done .ok).Holds .rxb [] := State.holds_rxb_nil rfl rfl
  have hne : frame ≠ [] := List.ne_nil_of_length_pos (by omega)
  have hneed : ((s.armFixed frame.length).done .ok).rxNeed.toNat = frame.length := toNat_toLen (by omega)
  have hlong : s.h + s.ck < frame.length := by omega
  obtain ⟨t, hrun, hgood, hbad⟩ := hb.receives_known rfl rfl hne hneed hlong (by simp; omega)
  obtain ⟨hres, -, hcfg, htx, -⟩ := runAll_evByte_onlyRx hrun
  exact ⟨t, (runAll_cons _ hexec).trans hrun, htx, hres, hcfg, hgood, hbad⟩

theorem extraHeader_of_multi {f : Byte} (hf : f ∈ [0x0F#8, 0x10#8]) : extraHeader f = 5 := by
  simp only [List.mem_cons, List.not_mem_nil, or_false] at hf
  rcases hf with rfl | rfl <;> rfl

/-- The payload is announced inside the extra header: what comes behind it does not matter (30_encoding R91). -/
theorem trailingPayload_append {n : Nat} {bs : List Byte} (cs : List Byte)
    (hl : n + 1 + extraHeader (bs.getD n 0#8) ≤ bs.length) : trailingPayload n (bs ++ cs) = trailingPayload n bs := by
  have hget : ∀ j < bs.length, (bs ++ cs).getD j 0#8 = bs.getD j 0#8 := fun j hj => List.getD_append _ _ _ _ hj
  rw [trailingPayload, trailingPayload, hget n (by omega)]
  by_cases hm : bs.getD n 0#8 ∈ [0x0F#8, 0x10#8]
  · have hx := extraHeader_of_multi hm
    rw [if_pos hm, if_pos hm, hget (n + 5) (by omega)]
  · rw [if_neg hm, if_neg hm]
    by_cases hs : bs.getD n 0#8 = 0x11#8
    · have hx : extraHeader (bs.getD n 0#8) = 1 := by rw [hs]; rfl
      rw [if_pos hs, if_pos hs, hget (n + 1) (by omega)]
    · rw [if_neg hs, if_neg hs]

section
variable {s : State} {bs cs : List Byte} (h : s.Holds .rxb bs)
include h

/-- The last extra header byte gives the total, and the bytes behind it end the receive; in TCP mode there may be none
(43_receiver R203). -/
theorem State.Holds.receives_extra_end {d : Byte} (hs : s.rxState = .awaitRemainder) (hk : s.rxKnown = false)
    (hneed : s.rxNeed = 1#9) (h1 : s.h + 1 ≤ bs.length) (hb : bs.length = s.h + extraHeader (bs.getD s.h 0#8))
    (htot : s.rxTotal.toNat = bs.length + 1)
    (hlen : (bs ++ [d] ++ cs).length = bs.length + 1 + trailingPayload s.h (bs ++ [d] ++ cs) + s.ck)
    (hmax : (bs ++ [d] ++ cs).length ≤ s.maxAdu) : Receives s (d :: cs) (bs ++ [d] ++ cs) := by
  have hadu := s.maxAdu_le
  have hfn : (bs ++ [d]).getD s.h 0#8 = bs.getD s.h 0#8 := List.getD_append _ _ _ _ (by omega)
  have hpre : (bs ++ [d]).length = bs.length + 1 := List.length_append
  have hsum : (bs ++ [d] ++ cs).length = bs.length + 1 + cs.length := by rw [List.length_append, hpre]
  rw [trailingPayload_append cs (by rw [hfn]; omega)] at hlen
  obtain ⟨-, hgo, hdone⟩ :=
    extraHeaderCompletes (.evByte d) d s bs cs.length _ rfl hs hk hneed h h1 hb htot (by omega) rfl
  cases cs with
  | nil =>
    obtain ⟨u, hexec, hu, hub⟩ := hdone (hsum ▸ hmax) rfl
    have htcp : s.mode = .tcp := by
      rcases s.mode_lengths with ⟨-, -, hck, -⟩ | ⟨htcp, -⟩
      · rw [List.length_nil] at hsum
        omega
      · exact htcp
    have hres := congrArg State.rxResult hu
    rw [← hfn] at hres
    rw [List.append_nil]
    exact .of_exec_last hexec ⟨fun _ => ⟨congrArg State.rxState hu, hub, hres⟩, absurd (.inl htcp)⟩
  | cons c cs =>
    obtain ⟨u, hexec, hu, hub⟩ := hgo (hsum ▸ hmax) (Nat.succ_pos _)
    have hum : u.mode = s.mode := (congrArg State.mode hu :)
    obtain ⟨huh, huck, -⟩ := State.lengths_congr hum
    have hun : u.rxNeed = toLen (c :: cs).length := (congrArg State.rxNeed hu :)
    refine .of_exec hexec hum (hub.receives_known ((congrArg State.rxState hu).trans hs) (congrArg State.rxKnown hu)
      (List.cons_ne_nil _ _) ?_ ?_ (hmax.trans hadu))
    · rw [hun, toNat_toLen (by omega)]
    · omega

/-- With the function byte there and its extra header not empty, the header's bytes and those it announces end the
receive (43_receiver R203). -/
theorem State.Holds.receives_unknown {x : Nat} (hs : s.rxState = .awaitRemainder) (hk : s.rxKnown = false)
    (hx : extraHeader (bs.getD s.h 0#8) = x) (hpos : 0 < x) (hb : bs.length = s.h + 1) (hneed : s.rxNeed.toNat = x)
    (htot : s.rxTotal.toNat = s.h + 1 + x)
    (hlen : (bs ++ cs).length = s.h + 1 + x + trailingPayload s.h (bs ++ cs) + s.ck)
    (hmax : (bs ++ cs).length ≤ s.maxAdu) : Receives s cs (bs ++ cs) := by
  have hadu := s.maxAdu_le
  have hlt : x - 1 < cs.length := by
    rw [List.length_append] at hlen
    omega
  obtain ⟨ext, d, rest, rfl, hext⟩ := exists_eq_append_cons hlt
  have hframe : bs ++ (ext ++ d :: rest) = bs ++ ext ++ [d] ++ rest := by simp
  have hlen' : (bs ++ ext).length = s.h + x := by rw [List.length_append]; omega
  have hfn : (bs ++ ext).getD s.h 0#8 = bs.getD s.h 0#8 := List.getD_append _ _ _ _ (by omega)
  rw [hframe] at hlen hmax ⊢
  have hshort : bs.length + ext.length ≤ 260 := by
    simp only [List.length_append] at hmax
    omega
  obtain ⟨t, hrun, ht, htb⟩ := h.runAll_to_last (s.receiving_iff.mpr (.inr hs)) hshort (by omega)
  have htm : t.mode = s.mode := (congrArg State.mode ht :)
  obtain ⟨hh, hck, htadu⟩ := State.lengths_congr htm
  have htt : t.rxTotal = s.rxTotal := (congrArg State.rxTotal ht :)
  refine .of_runAll hrun htm (htb.receives_extra_end ((congrArg State.rxState ht).trans hs)
    ((congrArg State.rxKnown ht).trans hk) (congrArg State.rxNeed ht) ?_ ?_ ?_ ?_ (htadu ▸ hmax))
  · omega
  · rw [hh, hfn, hx, hlen']
  · rw [htt, htot, hlen']
    omega
  · rw [hlen, hh, hck, hlen']
    omega

end

/-- Without extra header there is no payload (30_encoding R90, R91). -/
theorem trailingPayload_of_no_extra {n : Nat} {bs : List Byte} (h : extraHeader (bs.getD n 0#8) = 0) :
    trailingPayload n bs = 0 := by
  obtain ⟨hm, hs, -⟩ := extraHeader_eq_zero _ h
  rw [Ne, fclass_wrMulti_iff] at hm
  rw [Ne, fclass_slaveId_iff] at hs
  rw [trailingPayload, if_neg hm, if_neg hs]

/-- From the function byte on, a frame whose length its function and count bytes give ends the receive (43_receiver
R203). -/
theorem State.Holds.receives_function {s : State} {hdr rest : List Byte} {f : Byte} (h : s.Holds .rxb hdr)
    (hs : s.rxState = .awaitFunction) (hneed : s.rxNeed = 1#9) (htot : s.rxTotal.toNat = s.h + 1)
    (hhdr : hdr.length = s.h) (hmax : (hdr ++ [f] ++ rest).length ≤ s.maxAdu)
    (hlen : (hdr ++ [f] ++ rest).length =
      s.h + 1 + extraHeader f + trailingPayload s.h (hdr ++ [f] ++ rest) + s.ck) :
    Receives s (f :: rest) (hdr ++ [f] ++ rest) := by
  have hfn : ∀ tail, (hdr ++ [f] ++ tail).getD s.h 0#8 = f := by simp [← hhdr]
  have hpre : (hdr ++ [f]).length = s.h + 1 := by rw [List.length_append, hhdr]; rfl
  rw [List.length_append, hpre] at hmax
  obtain ⟨hextra, hrtu, htcp⟩ := functionByteArrives (.evByte f) f s hdr rfl hs hneed h hhdr htot
  rcases Nat.eq_zero_or_pos (extraHeader f) with hx | hx
  · have hrest : rest.length = s.ck := by
      rw [trailingPayload_of_no_extra (by rw [hfn, hx]), List.length_append, hpre] at hlen
      omega
    cases hm : s.mode with
    | rtu =>
      obtain ⟨hh, hck, -⟩ := State.lengths_rtu hm
      obtain ⟨u, hexec, hu, hub⟩ := hrtu hx hm
      have hum : u.mode = s.mode := (congrArg State.mode hu :)
      obtain ⟨huh, huck, -⟩ := State.lengths_congr hum
      have hun : u.rxNeed = 2#9 := (congrArg State.rxNeed hu :)
      refine .of_exec hexec hum (hub.receives_known (congrArg State.rxState hu) (congrArg State.rxKnown hu) ?_ ?_ ?_ ?_)
      · exact List.ne_nil_of_length_pos (by omega)
      · rw [hun, hrest, hck]
        rfl
      · rw [List.length_append, hpre]
        omega
      · rw [List.length_append, hpre]
        omega
    | tcp =>
      obtain ⟨-, hck, -⟩ := State.lengths_tcp hm
      obtain ⟨u, hexec, hu, hub⟩ := htcp hx hm
      obtain ⟨-, -, hplain⟩ := extraHeader_eq_zero f hx
      obtain rfl : rest = [] := List.eq_nil_of_length_eq_zero (hrest.trans hck)
      have hres : u.rxResult = if 0x80 ≤ ((hdr ++ [f] ++ []).getD s.h 0#8).toNat then .remoteException else .ok := by
        rw [hfn, if_neg (Nat.not_le.mpr hplain)]
        exact (congrArg State.rxResult hu :)
      rw [List.append_nil] at hres ⊢
      exact .of_exec_last hexec ⟨fun _ => ⟨congrArg State.rxState hu, hub, hres⟩, absurd (.inl hm)⟩
  · obtain ⟨u, hexec, hu, hub⟩ := hextra hx
    have hx5 := extraHeader_le f
    have hmode := s.mode_lengths
    have hum : u.mode = s.mode := (congrArg State.mode hu :)
    obtain ⟨huh, huck, huadu⟩ := State.lengths_congr hum
    have hun : u.rxNeed.toNat = extraHeader f := by
      rw [(congrArg State.rxNeed hu :)]
      exact toNat_toLen (by omega)
    have hut : u.rxTotal.toNat = s.h + 1 + extraHeader f := by
      rw [(congrArg State.rxTotal hu :)]
      exact toNat_toLen (by omega)
    refine .of_exec hexec hum
      (hub.receives_unknown (congrArg State.rxState hu) (congrArg State.rxKnown hu) ?_ hx (hpre.trans ?_) hun ?_ ?_ ?_)
    · rw [huh, ← List.append_nil (hdr ++ [f]), hfn]
    · rw [huh]
    · rw [hut, huh]
    · rw [hlen, huh, huck]
    · rw [List.length_append, hpre, huadu]
      exact hmax

/-- From the first byte on (43_receiver R203). -/
theorem State.Holds.receives_undefined {s : State} {frame : List Byte} (h : s.Holds .rxb [])
    (hs : s.rxState = .awaitFunction) (hneed : s.rxNeed.toNat = s.h + 1) (htot : s.rxTotal.toNat = s.h + 1)
    (hmax : frame.length ≤ s.maxAdu)
    (hlen : frame.length =
      s.h + 1 + extraHeader (frame.getD s.h 0#8) + trailingPayload s.h frame + s.ck) : Receives s frame frame := by
  have hmode := s.mode_lengths
  obtain ⟨hdr, f, rest, rfl, hhdr⟩ := exists_eq_append_cons (cs := frame) (n := s.h) (by omega)
  have hfn : (hdr ++ f :: rest).getD s.h 0#8 = f := by simp [← hhdr]
  rw [hfn] at hlen
  rw [List.append_cons] at hlen hmax
  obtain ⟨t, hrun, ht, htb⟩ := h.runAll_to_last (cs := hdr) (s.receiving_iff.mpr (.inl hs)) (by simp; omega) (by omega)
  have htm : t.mode = s.mode := (congrArg State.mode ht :)
  obtain ⟨hh, hck, hadu⟩ := State.lengths_congr htm
  have htt : t.rxTotal = s.rxTotal := (congrArg State.rxTotal ht :)
  refine .of_runAll hrun htm ?_
  rw [List.append_cons hdr f rest]
  refine State.Holds.receives_function htb ((congrArg State.rxState ht).trans hs) (congrArg State.rxNeed ht) ?_ ?_ ?_ ?_
  · rw [htt, htot, hh]
  · rw [hhdr, hh]
  · exact hadu ▸ hmax
  · rw [hh, hck]
    exact hlen

/-- Settles O46: RXUND arms the receive of header and function byte, from which the frame gives its own length. -/
theorem undefinedLengthReceiveOfWholeFrame : Obligations.UndefinedLengthReceiveOfWholeFrame := by
  intro s frame hr hmax hmin hlen
  have hmode := s.mode_lengths
  obtain ⟨harm, -⟩ := rxundCommand
  have hexec : exec .rxund s = .next (s.armUndefined.done .ok) := harm s hr
  have hb : (s.armUndefined.done .ok).Holds .rxb [] := State.holds_rxb_nil rfl rfl
  have hseg : (toLen (s.h + 1)).toNat = s.h + 1 := toNat_toLen (by omega)
  obtain ⟨t, hrun, hgood, hbad⟩ := hb.receives_undefined rfl hseg hseg hmax hlen
  obtain ⟨hres, -, hcfg, htx, -⟩ := runAll_evByte_onlyRx hrun
  exact ⟨t, (runAll_cons _ hexec).trans hrun, htx, hres, hcfg, hgood, hbad⟩

end Sys2Proof.Machine
end

section
/-!
PROOFS. The family 43_receiver, the invariant of every run (R211, 10_state R32 to R37): it falls into the form of the
buffers, which the family 20_memory keeps, the outbound side, the receiver and two registers; every instruction keeps
each part.
-/

namespace Sys2Proof.Machine

/-! ## The invariant: the outbound side -/

/-- A buffer is filled to its valid length exactly when it holds some list of bytes. -/
theorem State.filled_iff_exists_holds {s : State} {b : Buffer} :
    Memory.Filled (s.buf b) (s.vlen b) ↔ ∃ bs, s.Holds b bs :=
  ⟨State.exists_holds, fun ⟨_, hl, hm⟩ => hl ▸ hm.filled⟩

/-- What the invariant says of TXB beside its form and its bound (10_state R32). -/
def State.TxSound (s : State) : Prop :=
  (∃ bs, s.Holds .txb bs) ∧ (s.txFinal = true → s.h + 1 + s.ck ≤ s.txLen.toNat)

theorem State.Holds.txSound_of_building {s : State} {bs : List Byte} (h : s.Holds .txb bs) (hf : s.txFinal = false) :
    s.TxSound := ⟨⟨bs, h⟩, fun hx => absurd (hf.symm.trans hx) (by decide)⟩

theorem Refuses.txSound {s t : State} (h : Refuses s t) (hs : s.TxSound) : t.TxSound := by
  rw [h.eq_with_sta]
  exact hs

theorem txSound_of_setR0 {s t : State} (hs : s.TxSound) (h : Refuses s t ∨ ∃ v, t = (s.setR0 v).done .ok) :
    t.TxSound := by
  rcases h with hr | ⟨v, rfl⟩
  · exact hr.txSound hs
  · exact hs

theorem State.configure_txSound {s : State} (hs : s.TxSound) (value : Word) (target : CfgReg) :
    (s.configure value target).TxSound := by
  cases target with
  | mode m => exact (State.holds_txb_nil rfl rfl).txSound_of_building rfl
  | tFirst => exact hs
  | tEof => exact hs
  | tResp => exact hs

theorem State.build_txSound (s : State) {frame : List Byte} (hl : frame.length < 512) : (s.build frame).TxSound :=
  (s.holds_build hl).txSound_of_building rfl

theorem execPushb_txSound {s t : State} {byte : Byte} (hs : s.TxSound) (h : exec (.pushb byte) s = .next t) :
    t.TxSound := by
  obtain ⟨⟨bs, hb⟩, -⟩ := id hs
  rcases execPushb_eq_next h with hr | ⟨hf, hl, -⟩
  · exact hr.txSound hs
  · obtain ⟨u, hu, ht, hx⟩ := hb.execPushb hf (hb.txLen ▸ hl) byte
    obtain rfl : t = u := Host.Outcome.next.inj (h.symm.trans hu)
    exact hx.txSound_of_building ((congrArg State.txFinal ht).trans hf)

theorem State.Holds.txSound_of_sized {t : State} {bs : List Byte} (h : t.Holds .txb bs)
    (hl : t.h + 1 + t.ck ≤ bs.length) : t.TxSound := ⟨⟨bs, h⟩, fun _ => h.txLen ▸ hl⟩

/-- FINAL leaves a frame with a function byte and, in RTU mode, its checksum behind it (41_frame_encode R146). -/
theorem execFinal_txSound {s t : State} (hs : s.TxSound) (h : exec .final s = .next t) : t.TxSound := by
  obtain ⟨⟨bs, hb⟩, -⟩ := id hs
  rcases execFinal_eq_next h with hr | ⟨hf, h1, hmax, -⟩
  · exact hr.txSound hs
  · rw [hb.txLen] at h1 hmax
    cases hm : s.mode with
    | rtu =>
      obtain ⟨u, hu, ht, hx⟩ := hb.execFinal_rtu hf h1 hmax hm
      obtain rfl : t = u := Host.Outcome.next.inj (h.symm.trans hu)
      obtain ⟨hh, -⟩ := State.lengths_rtu hm
      obtain ⟨hh', hck', -⟩ := State.lengths_rtu ((congrArg State.mode ht).trans hm)
      exact hx.txSound_of_sized (by simp; omega)
    | tcp =>
      obtain ⟨u, hu, ht, hx⟩ := hb.execFinal_tcp hf h1 hmax hm
      obtain rfl : t = u := Host.Outcome.next.inj (h.symm.trans hu)
      obtain ⟨hh, -⟩ := State.lengths_tcp hm
      obtain ⟨hh', hck', -⟩ := State.lengths_tcp ((congrArg State.mode ht).trans hm)
      exact hx.txSound_of_sized (by simp; omega)

theorem exec_host_txSound {i : Instr} {s t : State} (hp : i.port = .host) (hs : s.TxSound) (h : exec i s = .next t) :
    t.TxSound := by
  cases i with
  | nop => exact execNop_eq_next h ▸ hs
  | txclr => exact execTxclr_eq_next h ▸ (State.holds_txb_nil rfl rfl).txSound_of_building rfl
  | cfgw reg value =>
    exact (execCfgw_eq_next h).elim (·.txSound hs) fun ⟨_, target, _, ht⟩ =>
      ht ▸ State.configure_txSound hs value target
  | cfgr reg => exact txSound_of_setR0 hs (execCfgr_eq_next h)
  | crc16 b len => exact txSound_of_setR0 hs (execCrc16_eq_next h)
  | crcv b len => exact txSound_of_setR0 hs (execCrcv_eq_next h)
  | pushb byte => exact execPushb_txSound hs h
  | ldb b idx => exact txSound_of_setR0 hs (execLdb_eq_next h)
  | bldreq slave f addr count =>
    have hl := s.requestFrame_length_le slave f addr count
    exact (execBldreq_eq_next h).elim (·.txSound hs) fun ht => ht ▸ (s.build_txSound (hl.trans_lt (by decide)) :)
  | bldrsp f =>
    rcases execBldrsp_eq_next h with hr | ⟨-, frame, hf, rfl⟩
    · exact hr.txSound hs
    · have hl := State.responseHeader_length_le hf
      exact (s.build_txSound (by omega : frame.length < 512) :)
  | bldexc code =>
    rcases execBldexc_eq_next h with hr | ⟨-, f, frame, hf, rfl⟩
    · exact hr.txSound hs
    · have hl := State.responseHeader_length_le hf
      exact (s.build_txSound (by simp; omega : (frame ++ [code]).length < 512) :)
  | final => exact execFinal_txSound hs h
  | predict w => exact (execPredict_eq_next h).elim (·.txSound hs) fun ⟨_, ht⟩ => ht ▸ hs
  | decreq b => exact (execDecreq_eq_next h).elim (·.txSound hs) fun ⟨_, ht⟩ => ht ▸ hs
  | decrsp => exact (execDecrsp_eq_next h).elim (·.txSound hs) fun ⟨_, ht⟩ => ht ▸ hs
  | chkqty w => exact (execChkqty_eq_next h).elim (·.txSound hs) fun ⟨_, _, _, ht⟩ => ht ▸ hs
  | unpack w idx => exact txSound_of_setR0 hs (execUnpack_eq_next h)
  | rxfix e =>
    rcases execRxfix_eq_next h with hr | ⟨-, rfl⟩ | ⟨-, -, -, rfl⟩
    · exact hr.txSound hs
    · exact hs
    · exact hs
  | rxund => exact (execRxund_eq_next h).elim (·.txSound hs) fun ⟨_, ht⟩ => ht ▸ hs
  | _ => nomatch hp

/-- An event leaves the mode and TXB alone. -/
theorem OnlyRx.txSound {s t : State} (h : OnlyRx s t) (hs : s.TxSound) : t.TxSound := by
  obtain ⟨-, -, ⟨hmode, -⟩, ⟨-, htxb, htxLen, htxFinal⟩, -⟩ := h
  obtain ⟨hh, hck, -⟩ := State.lengths_congr hmode
  obtain ⟨⟨bs, hb⟩, hfinal⟩ := hs
  refine ⟨⟨bs, State.holds_txb_congr htxb htxLen hb⟩, ?_⟩
  rwa [htxFinal, hh, hck, htxLen]

/-! ## The invariant: the receiver -/

/-- What the invariant says of the receiver beside the form of RXB (10_state R33 to R37, 43_receiver R211). -/
def State.RxSound (s : State) : Prop := (∃ bs, s.Holds .rxb bs) ∧ s.RxInv

/-- What a receive in progress knows of its total: nothing before the function byte, then the extra header, then the
total itself (43_receiver R203). -/
def State.Progress (s : State) : Prop :=
  (s.rxState = .awaitFunction ∧ s.rxTotal.toNat = s.h + 1 ∧ s.rxKind = .undefinedLength ∧ s.rxKnown = false) ∨
    (s.rxState = .awaitRemainder ∧ (s.rxKnown = true → s.TotalKnown) ∧ (s.rxKnown = false → s.TotalUnknown))

theorem State.rxInv_of_progress {s : State} (hc : s.Counting) (hp : s.Progress) : s.RxInv := by
  rcases hp with ⟨hs, htot, hkind, hk⟩ | ⟨hs, hk⟩
  · simp only [State.RxInv, hs]
    exact ⟨hc, htot, hkind, hk⟩
  · simp only [State.RxInv, hs]
    exact ⟨hc, hk⟩

theorem State.RxInv.progress {s : State} (h : s.RxInv) (hr : s.receiving = true) : s.Counting ∧ s.Progress := by
  rcases s.receiving_iff.mp hr with hs | hs
  · simp only [State.RxInv, hs] at h
    obtain ⟨hc, hrest⟩ := h
    exact ⟨hc, .inl ⟨hs, hrest⟩⟩
  · simp only [State.RxInv, hs] at h
    obtain ⟨hc, hrest⟩ := h
    exact ⟨hc, .inr ⟨hs, hrest⟩⟩

/-- With `l` bytes there and `n` more needed, the total is their sum (43_receiver R211). -/
theorem State.counting_of_needs {s : State} {l n : Nat} (hn : 1 ≤ n) (hmax : l + n ≤ s.maxAdu)
    (hlen : s.rxLen.toNat = l) (hneed : s.rxNeed = toLen n) (htot : s.rxTotal = toLen (l + n))
    (hres : s.rxResult = .noOutcome) : s.Counting := by
  have hadu := s.maxAdu_le
  rw [State.Counting, hlen, hneed, htot, toNat_toLen (by omega), toNat_toLen (by omega)]
  exact ⟨hn, rfl, hmax, hres⟩

/-- The invariant speaks of the receiver's side and the mode alone. -/
theorem KeepsReceiver.rxSound {s t : State} (h : KeepsReceiver s t) (hs : s.RxSound) : t.RxSound := by
  cases s
  cases t
  obtain ⟨⟨rfl, rfl, rfl, rfl, rfl, rfl, rfl, rfl, rfl, rfl⟩, rfl, -⟩ := h
  exact hs

/-- A fault keeps the bytes or discards them, and its code is one of a faulted receive (43_receiver R209). -/
theorem State.Holds.rxFault_rxSound {s : State} {bs : List Byte} {c : Status} (h : s.Holds .rxb bs)
    (hl : bs.length ≤ s.maxAdu) (hc : c.faultCode = true) : (s.rxFault c).RxSound := by
  have hb : ∃ cs, (s.rxFault c).Holds .rxb cs ∧ cs.length ≤ bs.length := by
    by_cases hcrc : c = .invalidCrc
    · exact ⟨[], State.holds_rxb_nil (by simp [hcrc]) (by simp [hcrc]), Nat.zero_le _⟩
    · exact ⟨bs, State.holds_rxb_congr (by simp [hcrc]) (by simp [hcrc]) h, Nat.le_refl _⟩
  obtain ⟨cs, hcs, hle⟩ := hb
  obtain ⟨-, -, hmax⟩ := State.lengths_congr (s.rxFault_mode c)
  refine ⟨⟨cs, hcs⟩, ?_⟩
  simp only [State.RxInv, State.rxFault_rxState]
  exact ⟨by simpa using hc, by simp, by rw [hcs.rxLen, hmax]; omega⟩

/-- As long as a complete frame must be: function byte and checksum, and the code of an exception (43_receiver R203). -/
def State.FrameSized (s : State) (bs : List Byte) : Prop :=
  s.h + 1 + s.ck ≤ bs.length ∧ bs.length ≤ s.maxAdu ∧
    (exceptionBit (bs.getD s.h 0#8) = true → s.h + 2 + s.ck ≤ bs.length)

/-- An exception response announces its code byte (30_encoding R90). -/
theorem extraHeader_of_exceptionBit {f : Byte} (h : exceptionBit f = true) : extraHeader f = 1 := by
  rw [exceptionBit_eq, decide_eq_true_eq] at h
  exact if_pos h

section
variable {s t : State} {bs : List Byte} (h : s.Holds .rxb bs)
include h

theorem State.Holds.read_rxb {j : Nat} (hj : j < bs.length) : Memory.read s.rxb j = some (bs.getD j 0#8) := by
  rw [List.getD_eq_getElem?_getD, List.getElem?_eq_getElem hj, Option.getD_some, ← List.getElem?_eq_getElem hj]
  exact h.2 j

theorem State.Holds.completeWith_rxSound (hsz : s.FrameSized bs) (hg : s.frameGood = some true) :
    (s.completeWith (if exceptionBit (bs.getD s.h 0#8) = true then .remoteException else .ok)).RxSound := by
  obtain ⟨hmin, hmax, hx⟩ := hsz
  have hlen := h.rxLen
  refine ⟨⟨bs, State.holds_rxb_congr rfl rfl h⟩, ?_⟩
  refine ⟨rfl, rfl, ?_, ?_, rfl, hg, bs.getD s.h 0#8, h.read_rxb (show s.h < bs.length by omega), rfl, ?_⟩
  · exact hlen ▸ hmin
  · exact hlen ▸ hmax
  · exact hlen ▸ hx

theorem State.Holds.finish_rxSound (hsz : s.FrameSized bs) (hfin : s.finish = .next t) : t.RxSound := by
  obtain ⟨hmin, hmax, -⟩ := id hsz
  rcases State.finish_eq_next hfin with ⟨f, hg, hf, rfl⟩ | ⟨-, rfl⟩
  · rw [h.byteAt_getD (by omega)] at hf
    cases hf
    exact h.completeWith_rxSound hsz hg
  · exact h.rxFault_rxSound hmax rfl

theorem State.Holds.timeout_rxSound (hmax : bs.length ≤ s.maxAdu) (ht : s.timeout = .next t) : t.RxSound := by
  have hmode := s.mode_lengths
  rcases State.timeout_eq_next ht with rfl | ⟨-, hl, ⟨-, rfl⟩ | ⟨f, hg, hf, hx, rfl⟩⟩
  · exact h.rxFault_rxSound hmax rfl
  · exact h.rxFault_rxSound hmax rfl
  · rw [h.rxLen] at hl
    rw [h.byteAt_getD (by omega)] at hf
    cases hf
    have hsound := h.completeWith_rxSound ⟨by omega, hmax, fun _ => by omega⟩ hg
    rwa [if_pos hx] at hsound

/-- The function byte is in RXB with its extra header, and the total becomes known: the receive faults, goes on, or, in
TCP mode without payload, finishes (43_receiver R203). -/
theorem State.Holds.lengthKnown_rxSound {p : Nat} (hs : s.rxState = .awaitRemainder)
    (hkind : s.rxKind = .undefinedLength) (hres : s.rxResult = .noOutcome)
    (hlen : bs.length = s.h + 1 + extraHeader (bs.getD s.h 0#8)) (htot : s.rxTotal.toNat = bs.length)
    (hp : s.ck ≤ p) (hk : s.lengthKnown p = .next t) : t.RxSound := by
  have hmode := s.mode_lengths
  have hx := extraHeader_le (bs.getD s.h 0#8)
  have hl := h.rxLen
  have hlt : s.h < bs.length := by omega
  have hmax : bs.length ≤ s.maxAdu := by omega
  unfold State.lengthKnown at hk
  split at hk
  · cases hk
    exact State.Holds.rxFault_rxSound (State.holds_rxb_congr rfl rfl h) hmax rfl
  · split at hk
    · cases hk
      have hle : s.rxTotal.toNat + p ≤ s.maxAdu := by omega
      have hknown : s.h + 1 + xhdr (fclass (bs.getD s.h 0#8)) + s.ck ≤ (toLen (s.rxTotal.toNat + p)).toNat := by
        rw [xhdr_fclass, toNat_toLen (by omega)]
        omega
      exact ⟨⟨bs, State.holds_rxb_congr rfl rfl h⟩,
        State.rxInv_of_progress (State.counting_of_needs ‹0 < p› hle (hl.trans htot.symm) rfl rfl hres)
          (.inr ⟨hs, fun _ => .inr ⟨hkind, _, h.read_rxb hlt, hknown⟩, nofun⟩)⟩
    · have hexc : exceptionBit (bs.getD s.h 0#8) = true → s.h + 2 + s.ck ≤ bs.length := by
        intro he
        have := extraHeader_of_exceptionBit he
        omega
      have hsz : s.FrameSized bs := ⟨by omega, hmax, hexc⟩
      refine State.Holds.finish_rxSound (bs := bs) ?_ ?_ hk
      · exact State.holds_rxb_congr rfl rfl h
      · exact hsz

/-- With the total reached, the frame is as long as a complete one must be (43_receiver R193, R203). -/
theorem State.Holds.frameSized_of_totalKnown (hk : s.TotalKnown) (hlen : bs.length = s.rxTotal.toNat)
    (hmax : bs.length ≤ s.maxAdu) : s.FrameSized bs := by
  have hmode := s.mode_lengths
  rcases hk with ⟨-, hl⟩ | ⟨-, f, hf, hl⟩
  · exact ⟨by omega, hmax, fun _ => by omega⟩
  · rw [xhdr_fclass] at hl
    rw [h.read_rxb (by omega)] at hf
    cases hf
    refine ⟨by omega, hmax, fun he => ?_⟩
    have := extraHeader_of_exceptionBit he
    omega

/-- `advance()` when the bytes of the current segment are all there (43_receiver R203). -/
theorem State.Holds.advance_rxSound (hp : s.Progress) (hres : s.rxResult = .noOutcome)
    (hlen : bs.length = s.rxTotal.toNat) (hmax : bs.length ≤ s.maxAdu) (ha : s.advance = .next t) : t.RxSound := by
  have hmode := s.mode_lengths
  have hl := h.rxLen
  rcases hp with ⟨hs, htot, hkind, hk⟩ | ⟨hs, hknown, hunknown⟩
  · have hlt : s.h < bs.length := by omega
    have hx := extraHeader_le (bs.getD s.h 0#8)
    rw [State.advance_awaitFunction hs (h.byteAt_getD hlt)] at ha
    split at ha
    · rename_i hpos
      cases ha
      have hle : s.rxTotal.toNat + extraHeader (bs.getD s.h 0#8) ≤ s.maxAdu := by omega
      have hunknown : (toLen (s.rxTotal.toNat + extraHeader (bs.getD s.h 0#8))).toNat =
          s.h + 1 + xhdr (fclass (bs.getD s.h 0#8)) := by
        rw [xhdr_fclass, toNat_toLen (by omega), htot]
      exact ⟨⟨bs, State.holds_rxb_congr rfl rfl h⟩,
        State.rxInv_of_progress (State.counting_of_needs hpos hle (hl.trans hlen) rfl rfl hres)
          (.inr ⟨rfl, nofun, fun _ => ⟨hkind, _, h.read_rxb hlt, hunknown⟩⟩)⟩
    · rename_i hzero
      have hlen' : bs.length = s.h + 1 + extraHeader (bs.getD s.h 0#8) := by omega
      refine State.Holds.lengthKnown_rxSound (bs := bs) ?_ ?_ ?_ ?_ ?_ ?_ ?_ ha
      exacts [State.holds_rxb_congr rfl rfl h, rfl, hkind, hres, hlen', hlen.symm, Nat.le_refl _]
  · cases hk : s.rxKnown with
    | true =>
      rw [State.advance_known hs hk] at ha
      exact h.finish_rxSound (h.frameSized_of_totalKnown (hknown hk) hlen hmax) ha
    | false =>
      obtain ⟨hkind, f, hf, htot⟩ := hunknown hk
      rw [xhdr_fclass] at htot
      rw [h.read_rxb (by omega)] at hf
      cases hf
      rw [h.advance_unknown hs hk (by omega)] at ha
      exact h.lengthKnown_rxSound hs hkind hres (hlen.trans htot) hlen.symm (Nat.le_add_left _ _) ha

end

/-- A stored byte leaves the function byte that has arrived where it is. -/
theorem State.Holds.read_storeByte {s : State} {bs : List Byte} {j : Nat} {f : Byte} (h : s.Holds .rxb bs) (d : Byte)
    (hf : Memory.read s.rxb j = some f) : Memory.read (s.storeByte d).rxb j = some f := by
  have hne : bs.length ≠ j := by
    rintro rfl
    have hend : Memory.read s.rxb bs.length = bs[bs.length]? := h.2 _
    simp [hend] at hf
  rw [State.storeByte_rxb, h.rxLen, Memory.read_write_other _ _ hne, hf]

/-- A stored byte changes nothing of what is known of the total (43_receiver R202). -/
theorem State.Progress.storeByte {s : State} {bs : List Byte} (hp : s.Progress) (h : s.Holds .rxb bs) (d : Byte) :
    (s.storeByte d).Progress := by
  rcases hp with hp | ⟨hs, hknown, hunknown⟩
  · exact .inl hp
  · refine .inr ⟨hs, fun hk => ?_, fun hk => ?_⟩
    · rcases hknown hk with hfixed | ⟨hkind, f, hf, hl⟩
      · exact .inl hfixed
      · exact .inr ⟨hkind, f, h.read_storeByte d hf, hl⟩
    · obtain ⟨hkind, f, hf, htot⟩ := hunknown hk
      exact ⟨hkind, f, h.read_storeByte d hf, htot⟩

theorem takeByte_rxSound {s t : State} {d : Byte} (hs : s.RxSound) (h : takeByte d s = .next t) : t.RxSound := by
  obtain ⟨hr, -⟩ := takeByte_eq_next h
  obtain ⟨⟨bs, hb⟩, hinv⟩ := hs
  obtain ⟨⟨hneed, hsum, hmax, hres⟩, hp⟩ := hinv.progress hr
  have hmode := s.mode_lengths
  have hlen := hb.rxLen
  have hu := hb.storeByte (by omega) d
  have hlen' : (bs ++ [d]).length = bs.length + 1 := List.length_append
  rw [hb.takeByte hr (by omega)] at h
  split at h
  · refine hu.advance_rxSound (hp.storeByte hb d) hres ?_ ?_ h
    · rw [State.storeByte_rxTotal]
      omega
    · change (bs ++ [d]).length ≤ s.maxAdu
      omega
  · cases h
    have hleft : bs.length + 1 + (s.rxNeed.toNat - 1) = s.rxTotal.toNat := by omega
    have htot : s.rxTotal = toLen (bs.length + 1 + (s.rxNeed.toNat - 1)) := by rw [hleft, toLen_toNat]
    have hc : (s.storeByte d).Counting :=
      State.counting_of_needs (by omega) (hleft.symm ▸ hmax) (hu.rxLen.trans hlen') rfl htot hres
    exact ⟨⟨_, hu⟩, State.rxInv_of_progress hc (hp.storeByte hb d)⟩

/-- While receiving the invariant says nothing of the wait's ticks. -/
theorem State.RxSound.withTimer {s : State} (hs : s.RxSound) (hr : s.receiving = true) (v : Word) :
    State.RxSound { s with rxTimer := v } := by
  obtain ⟨⟨bs, hb⟩, hinv⟩ := hs
  obtain ⟨hc, hp⟩ := hinv.progress hr
  exact ⟨⟨bs, State.holds_rxb_congr rfl rfl hb⟩, State.rxInv_of_progress hc hp⟩

/-- While receiving RXB holds no more than the mode's maximum. -/
theorem State.RxSound.exists_holds_of_receiving {s : State} (hs : s.RxSound) (hr : s.receiving = true) :
    ∃ bs, s.Holds .rxb bs ∧ bs.length ≤ s.maxAdu := by
  obtain ⟨⟨bs, hb⟩, hinv⟩ := hs
  obtain ⟨⟨-, hsum, hmax, -⟩, -⟩ := hinv.progress hr
  have hlen := hb.rxLen
  exact ⟨bs, hb, by omega⟩

theorem execTick_rxSound {s t : State} (hs : s.RxSound) (h : execTick s = .next t) : t.RxSound := by
  unfold execTick at h
  split at h
  · cases h
    exact hs
  · rename_i hr
    have hr : s.receiving = true := by simpa using hr
    split at h
    · cases h
      exact hs.withTimer hr _
    · obtain ⟨bs, hb, hmax⟩ := hs.exists_holds_of_receiving hr
      exact hb.timeout_rxSound hmax h

theorem exec_event_rxSound {i : Instr} {s t : State} (hp : i.port = .transport ∨ i.port = .time) (hs : s.RxSound)
    (h : exec i s = .next t) : t.RxSound := by
  cases hb : brings i with
  | some d => exact takeByte_rxSound hs ((exec_of_brings hb s).symm.trans h)
  | none =>
    cases i with
    | evClosed =>
      obtain ⟨hr, h⟩ := eq_next_of_enabled h
      cases h
      obtain ⟨bs, hb, hmax⟩ := hs.exists_holds_of_receiving hr
      exact hb.rxFault_rxSound hmax rfl
    | evFail =>
      obtain ⟨hr, h⟩ := eq_next_of_enabled h
      cases h
      obtain ⟨bs, hb, hmax⟩ := hs.exists_holds_of_receiving hr
      exact hb.rxFault_rxSound hmax rfl
    | evIntr =>
      obtain ⟨hr, h⟩ := eq_next_of_enabled h
      cases h
      exact hs.withTimer hr _
    | tick => exact execTick_rxSound hs h
    | _ => simp [Instr.port, brings] at hp hb

theorem State.armFixed_rxSound {s : State} {n : Nat} (hmin : Config.excLen s.mode ≤ n) (hmax : n ≤ s.maxAdu) :
    (s.armFixed n).RxSound := by
  have hmode := s.mode_lengths
  have hn : (s.armFixed n).rxTotal.toNat = n := toNat_toLen (by omega)
  have hc : (s.armFixed n).Counting :=
    State.counting_of_needs (l := 0) (n := n) (by omega) ((Nat.zero_add n).symm ▸ hmax) rfl rfl (by simp) rfl
  exact ⟨⟨[], State.holds_rxb_nil rfl rfl⟩,
    State.rxInv_of_progress hc (.inr ⟨rfl, fun _ => .inl ⟨rfl, hmin.trans_eq hn.symm⟩, nofun⟩)⟩

theorem State.armUndefined_rxSound (s : State) : s.armUndefined.RxSound := by
  have hmode := s.mode_lengths
  have hn : s.armUndefined.rxTotal.toNat = s.h + 1 := toNat_toLen (by omega)
  have hmax : 0 + (s.h + 1) ≤ s.maxAdu := by omega
  have hc : s.armUndefined.Counting := State.counting_of_needs (by omega) hmax rfl rfl (by simp) rfl
  exact ⟨⟨[], State.holds_rxb_nil rfl rfl⟩, State.rxInv_of_progress hc (.inl ⟨rfl, hn, rfl, rfl⟩)⟩

theorem State.configure_rxSound {s : State} (hs : s.RxSound) (value : Word) (target : CfgReg) :
    (s.configure value target).RxSound := by
  cases target with
  | mode m => exact ⟨⟨[], State.holds_rxb_nil rfl rfl⟩, rfl, rfl, rfl, rfl, rfl⟩
  | tFirst => exact hs
  | tEof => exact hs
  | tResp => exact hs

theorem exec_host_rxSound {i : Instr} {s t : State} (hp : i.port = .host) (hs : s.RxSound) (h : exec i s = .next t) :
    t.RxSound := by
  cases i with
  | cfgw reg value =>
    exact (execCfgw_eq_next h).elim (·.keepsReceiver.rxSound hs) fun ⟨_, target, _, ht⟩ =>
      ht ▸ State.configure_rxSound hs value target
  | rxfix e =>
    rcases execRxfix_eq_next h with hr | ⟨-, rfl⟩ | ⟨-, hmin, hmax, rfl⟩
    · exact hr.keepsReceiver.rxSound hs
    · exact ⟨⟨[], State.holds_rxb_nil rfl rfl⟩, rfl, rfl, Nat.zero_le _⟩
    · exact State.armFixed_rxSound hmin hmax
  | rxund => exact (execRxund_eq_next h).elim (·.keepsReceiver.rxSound hs) fun ⟨_, ht⟩ => ht ▸ s.armUndefined_rxSound
  | _ => exact (exec_host_keepsReceiver hp (by simp) (by simp) (by simp) h).rxSound hs

/-! ## The invariant: every step -/

/-- A host command leaves in `sta` a code of commands (60_exceptions R251). -/
theorem exec_host_commandCode {i : Instr} {s t : State} (hp : i.port = .host) (h : exec i s = .next t) :
    t.sta.commandCode = true := by
  rcases exec_host_eq_next hp h with ⟨c, -, -, hc, rfl⟩ | hc | hc | ⟨-, hc⟩
  · exact hc
  · rw [hc]; rfl
  · rw [hc]; rfl
  · rw [hc]; rfl

/-- The invariant in the parts that are proved apart. -/
theorem State.inv_iff {s : State} :
    s.Inv ↔ s.BuffersFit ∧ s.TxSound ∧ s.RxSound ∧ s.sta.commandCode = true ∧ s.r7 = 0#32 := by
  constructor
  · rintro ⟨hwf, ⟨htx, hrx⟩, ⟨hmax, hfinal⟩, hinv, hsta, hr7⟩
    exact ⟨⟨hwf, hmax⟩, ⟨State.exists_holds (b := .txb) htx, hfinal⟩, ⟨State.exists_holds (b := .rxb) hrx, hinv⟩, hsta,
      hr7⟩
  · rintro ⟨⟨hwf, hmax⟩, ⟨htx, hfinal⟩, ⟨hrx, hinv⟩, hsta, hr7⟩
    exact ⟨hwf, ⟨State.filled_iff_exists_holds (b := .txb).mpr htx, State.filled_iff_exists_holds (b := .rxb).mpr hrx⟩,
      ⟨hmax, hfinal⟩, hinv, hsta, hr7⟩

/-- The invariant holds after reset, whatever the environment has yet to deliver (70_reset_and_hazards R280). -/
theorem State.reset_inv (inbox : List PortWord) (later : Later) :
    State.Inv { State.reset with inbox := inbox, later := later } := by
  refine State.inv_iff.mpr ⟨⟨reset_buffersWf, Nat.zero_le _⟩, (State.holds_txb_nil rfl rfl).txSound_of_building rfl,
    ⟨⟨[], State.holds_rxb_nil rfl rfl⟩, rfl, rfl, rfl, rfl, rfl⟩, rfl, rfl⟩

theorem exec_inv {i : Instr} {s t : State} (hs : s.Inv) (h : exec i s = .next t) : t.Inv := by
  obtain ⟨hfit, htx, hrx, hsta, hr7⟩ := State.inv_iff.mp hs
  by_cases hi : i = .reset
  · subst hi
    cases h
    exact State.reset_inv _ _
  · have hfit' := exec_buffersFit hfit h
    have hr7' : t.r7 = 0#32 := (registerSevenIsNeverWritten i s t hi h).trans hr7
    have hevent : i.port = .transport ∨ i.port = .time → t.Inv := by
      intro hp
      have honly := exec_event_onlyRx hp h
      obtain ⟨-, hsta', -⟩ := id honly
      exact State.inv_iff.mpr ⟨hfit', honly.txSound htx, exec_event_rxSound hp hrx h, hsta' ▸ hsta, hr7'⟩
    cases hp : i.port with
    | host =>
      exact State.inv_iff.mpr
        ⟨hfit', exec_host_txSound hp htx h, exec_host_rxSound hp hrx h, exec_host_commandCode hp h, hr7'⟩
    | transport => exact hevent (.inl hp)
    | time => exact hevent (.inr hp)
    | reset => exact absurd (Instr.eq_reset_of_port hp) hi

/-- Settles O49: the instruction runs in a state that differs in the environment's fields alone, and keeps the
invariant; a malformed word changes `sta` alone. -/
theorem stepKeepsInvariant : Obligations.StepKeepsInvariant := by
  intro s t hs h
  obtain ⟨p, u, hn, h⟩ := step_eq_next h
  have hu : u.Inv := by
    obtain ⟨hwf, hfill, htx, hrx, hsta, hr7⟩ := hs
    rw [State.nextEvent_block hn]
    exact ⟨hwf, hfill, htx, hrx, hsta, hr7⟩
  rcases h with ⟨i, -, h⟩ | ⟨-, rfl⟩
  · exact exec_inv hu h
  · obtain ⟨hwf, hfill, htx, hrx, -, hr7⟩ := hu
    exact ⟨hwf, hfill, htx, hrx, rfl, hr7⟩

end Sys2Proof.Machine
end

section
/-!
PROOFS. The family 44_buffer_config: NOP (R230), the configuration commands CFGW (R231) and CFGR (R232), and the buffer
commands TXCLR (R233), PUSHB (R234) and LDB (R235).
-/

namespace Sys2Proof.Machine

/-! ## NOP and TXCLR -/

/-- Settles O13: NOP does nothing but finish. -/
theorem nopCommand : Obligations.NopCommand := fun _ => rfl

/-- Settles O14: the buffer's list of cells is empty and so is its length. -/
theorem txclrCommand : Obligations.TxclrCommand := fun _ => ⟨_, rfl, rfl, State.holds_txb_nil rfl rfl⟩

/-! ## CFGW -/

/-- MODE is reached with the number of the mode (10_state R25). -/
theorem cfgRegOf_mode (m : Mode) : cfgRegOf 0#8 (if m = .tcp then 1#32 else 0#32) = some (.mode m) := by
  cases m <;> rfl

theorem exec_cfgw_of_target {s : State} {reg : Byte} {value : Word} {target : CfgReg} (hr : s.receiving = false)
    (ht : cfgRegOf reg value = some target) :
    exec (.cfgw reg value) s = finishCommand .ok (s.configure value target) := by
  simp only [exec, execCfgw, ht]
  exact if_neg (ne_true_of_eq_false hr)

/-- The writes CFGW takes (30_encoding R98). -/
theorem legalWrite_eq_true_iff {reg : Byte} {value : Word} :
    legalWrite reg value = true ↔ reg.toNat ≤ 3 ∧ (reg = 0#8 → value.toNat ≤ 1) := by
  have h0 : reg = 0#8 ↔ reg.toNat = 0 := BitVec.toNat_eq
  simp only [h0, legalWrite, Bool.and_eq_true, Bool.or_eq_true, decide_eq_true_eq, ne_eq, imp_iff_not_or]

/-- Settles O15: the operand checks, then BUSY, then the effect on each of the four registers. -/
theorem cfgwCommand : Obligations.CfgwCommand := by
  refine ⟨?_, fun s value hr => ?_, fun s reg value h => ?_, fun s reg value hreg hmode hr => ?_⟩
  · rintro s m _ hr rfl
    exact exec_cfgw_of_target hr (cfgRegOf_mode m)
  · exact ⟨exec_cfgw_of_target (target := .tFirst) hr rfl, exec_cfgw_of_target (target := .tEof) hr rfl,
      exec_cfgw_of_target (target := .tResp) hr rfl⟩
  · have hillegal : legalWrite reg value = false := by
      rw [← Bool.not_eq_true, legalWrite_eq_true_iff]
      rintro ⟨hreg, hmode⟩
      rcases h with h | ⟨h0, h⟩
      · omega
      · exact absurd (hmode h0) (by omega)
    exact exec_eq_refuse_of_not_wellFormed s hillegal
  · exact execCfgw_busy hr (legalWrite_eq_true_iff.mpr ⟨hreg, hmode⟩)

/-! ## CFGR -/

theorem exec_cfgr_of_register {s : State} {reg : Byte} {v : Word} (hv : s.statusRegister reg = some v) :
    exec (.cfgr reg) s = .next { s with r0 := v, sta := .ok } := by
  simp only [exec, execCfgr, hv]
  rfl

theorem modeBit_setWidth (m : Mode) : (modeBit m).setWidth 32 = if m = .tcp then 1#32 else 0#32 := by
  cases m <;> rfl

theorem ofBool_setWidth (b : Bool) : (BitVec.ofBool b).setWidth 32 = if b = true then 1#32 else 0#32 := by
  cases b <;> rfl

theorem rxFlags_setWidth (kind : RxKind) (known : Bool) :
    (rxFlags kind known).setWidth 32 =
      BitVec.ofNat 32 ((if kind = .undefinedLength then 1 else 0) + (if known = true then 2 else 0)) := by
  cases kind <;> cases known <;> rfl

/-- The indices CFGR does not take (10_state R29). -/
theorem legalRead_eq_false {reg : Byte} (h : (4 ≤ reg.toNat ∧ reg.toNat ≤ 7) ∨ 18 ≤ reg.toNat) :
    legalRead reg = false := by
  simp only [legalRead, Bool.or_eq_false_iff, Bool.and_eq_false_iff, decide_eq_false_iff_not]
  omega

/-- Settles O16: the map's register at each of the fourteen indices, and no register at the others. -/
theorem cfgrCommand : Obligations.CfgrCommand := by
  refine ⟨fun s => ?_, fun s reg h => exec_eq_refuse_of_not_wellFormed s (legalRead_eq_false h)⟩
  simp only [BitVec.ofNat_toNat, ← modeBit_setWidth, ← ofBool_setWidth, ← rxFlags_setWidth]
  refine ⟨?_, ?_, ?_, ?_, ?_, ?_, ?_, ?_, ?_, ?_, ?_, ?_, ?_, ?_⟩ <;> exact exec_cfgr_of_register rfl

/-! ## PUSHB -/

/-- Settles O17: the byte goes behind the bytes held; the refusals are the two tests before it. -/
theorem pushbCommand : Obligations.PushbCommand :=
  ⟨fun _ byte _ hf h hl => h.execPushb hf hl byte,
    fun _ _ hf => if_pos hf,
    fun _ _ hf hl => (if_neg (ne_true_of_eq_false hf)).trans (if_pos hl)⟩

/-! ## LDB -/

theorem execLdb_of_selects {s : State} {b : Byte} {buf : Buffer} (hb : Selects b buf) (hr : ¬s.RxBusy buf)
    (idx : Half) :
    execLdb b idx s =
      if s.vlen buf ≤ idx.toNat then refuse .range s
      else withRead (s.byteAt buf idx.toNat) fun v => finishCommand .ok (s.setR0 (v.setWidth 32)) := by
  simp only [execLdb, (bufferOf_eq_some_iff b buf).mpr hb]
  exact if_neg hr

/-- Settles O18: one clause for each outcome of `execLdb`. -/
theorem ldbCommand : Obligations.LdbCommand := by
  refine ⟨fun s b buf idx bs hb hr h hidx => ?_,
    fun s _ _ hb => exec_eq_refuse_of_not_wellFormed s (legalBuffer_eq_false hb),
    fun _ idx hr => execLdb_rxb_busy hr idx,
    fun _ _ _ idx hb hr hidx => (execLdb_of_selects hb hr idx).trans (if_pos hidx)⟩
  change execLdb b idx s = _
  rw [execLdb_of_selects hb hr, h.length, if_neg (by omega), h.byteAt_getD hidx]
  rfl

end Sys2Proof.Machine
end

section
/-!
PROOFS. The family 60_exceptions: the block has no trap, so no step faults from the invariant (R250, R257); the receiver
is out of the host commands' reach but for RXFIX, RXUND and CFGW (R263); the codes a command leaves in `sta` (R251).
-/

namespace Sys2Proof.Machine

/-- Settles O59: a command is refused with one of these codes, or ends with OK, REMOTE_EXCEPTION or INVALID_DATA. -/
theorem commandStatusCodes : Obligations.CommandStatusCodes := fun _ _ _ hp h => exec_host_commandCode hp h

/-- Settles O55: no instruction touches the environment's fields, and no command but the three the receiver. -/
theorem hostCannotTouchTheReceiver : Obligations.HostCannotTouchTheReceiver := by
  intro i s t hp h
  refine ⟨exec_sameEnvironment h, fun hf hu hc => ?_⟩
  obtain ⟨hrx, -⟩ := exec_host_keepsReceiver hp hf hu hc h
  exact hrx

/-! ## Results that are no fault -/

/-- The result is a next state or a refusal of the step, not one of the model's two faults (60_exceptions R250). -/
def Faultless (r : Result) : Prop := ∀ f, r ≠ .fault f

theorem faultless_next (t : State) : Faultless (.next t) := nofun

theorem faultless_refused (r : Refusal) : Faultless (.refused r) := nofun

theorem faultless_ite {c : Prop} [Decidable c] {r k : Result} (hr : Faultless r) (hk : ¬c → Faultless k) :
    Faultless (if c then r else k) := by
  split
  · exact hr
  · exact hk ‹_›

/-- Behind a test for a refusal stands what is left to run. -/
theorem faultless_guard {c : Prop} [Decidable c] {code : Status} {s : State} {k : Result} (hk : ¬c → Faultless k) :
    Faultless (if c then refuse code s else k) := faultless_ite (faultless_next _) hk

/-- A read of a byte that has a value goes on (log entry 3). -/
theorem faultless_withRead {α : Type} {o : Option α} {k : α → Result} {a : α} (ho : o = some a)
    (hk : Faultless (k a)) : Faultless (withRead o k) := by
  rwa [ho, withRead_some]

theorem RunsNotBusy.faultless {r : Result} (h : RunsNotBusy r) : Faultless r := by
  obtain ⟨t, rfl, -⟩ := h
  exact faultless_next t

/-! ## The host's commands read only bytes that have values -/

theorem State.Inv.exists_holds {s : State} (hs : s.Inv) (b : Buffer) : ∃ bs, s.Holds b bs := by
  obtain ⟨-, ⟨htx, -⟩, ⟨hrx, -⟩, -⟩ := State.inv_iff.mp hs
  cases b with
  | txb => exact htx
  | rxb => exact hrx

/-- A complete frame has a function byte before its checksum, and an exception response a code behind that
(43_receiver R211, 42_predict_decode R166). -/
theorem State.Inv.complete_length {s : State} {rs : List Byte} (hs : s.Inv) (hc : s.rxState = .complete)
    (h : s.Holds .rxb rs) :
    s.h + 1 + s.ck ≤ rs.length ∧ (s.rxResult = .remoteException → s.h + 2 + s.ck ≤ rs.length) := by
  have hinv := hs.rxInv
  simp only [State.RxInv, hc] at hinv
  obtain ⟨-, -, hlen, -, -, -, f, -, hres, hexc⟩ := hinv
  rw [h.rxLen] at hlen hexc
  refine ⟨hlen, fun hre => hexc ?_⟩
  by_contra hx
  rw [if_neg hx, hre] at hres
  exact absurd hres (by decide)

/-- The identity of a request that has a function byte is in RXB (41_frame_encode R143). -/
theorem State.Holds.exists_responseHeader {s : State} {bs : List Byte} (h : s.Holds .rxb bs)
    (hl : s.h + 1 ≤ bs.length) (f : Byte) : ∃ frame, s.responseHeader f = some frame := by
  obtain ⟨hm, -⟩ | ⟨hm, hh, -⟩ := s.mode_lengths
  · exact ⟨_, h.responseHeader_rtu hm (by omega) f⟩
  · exact ⟨_, h.responseHeader_tcp hm (by omega) f⟩

theorem execCfgw_faultless (s : State) (reg : Byte) (value : Word) : Faultless (execCfgw reg value s) := by
  unfold execCfgw
  split
  · exact faultless_next _
  · exact faultless_guard fun _ => faultless_next _

section
variable {s : State} (hs : s.Inv)
include hs

theorem execLdb_faultless (b : Byte) (idx : Half) : Faultless (execLdb b idx s) := by
  unfold execLdb
  split
  · exact faultless_next _
  · next buf _ =>
    obtain ⟨bs, h⟩ := hs.exists_holds buf
    refine faultless_guard fun _ => faultless_guard fun hidx => ?_
    rw [h.length] at hidx
    exact faultless_withRead (h.byteAt_getD (by omega)) (faultless_next _)

theorem execCrc16_faultless (b : Byte) (len : Half) : Faultless (execCrc16 b len s) := by
  unfold execCrc16
  split
  · exact faultless_next _
  · next buf _ =>
    obtain ⟨bs, h⟩ := hs.exists_holds buf
    refine faultless_guard fun _ => faultless_guard fun hlen => ?_
    rw [h.length] at hlen
    exact faultless_withRead (h.bytesAt (by omega)) (faultless_next _)

theorem execCrcv_faultless (b : Byte) (len : Half) : Faultless (execCrcv b len s) := by
  unfold execCrcv
  split
  · exact faultless_next _
  · next buf _ =>
    obtain ⟨bs, h⟩ := hs.exists_holds buf
    refine faultless_guard fun _ => faultless_guard fun hlen => ?_
    rw [h.length] at hlen
    exact faultless_withRead (h.crcOk (by omega) (by omega))
      (faultless_ite (faultless_next _) fun _ => faultless_next _)

theorem execDecreq_faultless (b : Byte) : Faultless (execDecreq b s) := by
  unfold execDecreq
  split
  · exact faultless_next _
  · next buf _ =>
    obtain ⟨bs, h⟩ := hs.exists_holds buf
    have hbody := h.bodyLen_le
    refine faultless_guard fun _ => faultless_guard fun _ => faultless_guard fun h1 => ?_
    refine faultless_withRead (h.byteAt_getD (by omega)) (faultless_guard fun hneed => ?_)
    exact faultless_withRead (h.requestFields (by omega)) (faultless_next _)

theorem execBldrsp_faultless (f : Byte) : Faultless (execBldrsp f s) := by
  obtain ⟨rs, h⟩ := hs.exists_holds .rxb
  refine faultless_guard fun _ => faultless_guard fun hc => ?_
  obtain ⟨hlen, -⟩ := hs.complete_length (not_not.mp hc) h
  obtain ⟨frame, hframe⟩ := h.exists_responseHeader (by omega) f
  exact faultless_withRead hframe (faultless_next _)

theorem execBldexc_faultless (code : Byte) : Faultless (execBldexc code s) := by
  obtain ⟨rs, h⟩ := hs.exists_holds .rxb
  refine faultless_guard fun _ => faultless_guard fun hc => ?_
  obtain ⟨hlen, -⟩ := hs.complete_length (not_not.mp hc) h
  obtain ⟨frame, hframe⟩ := h.exists_responseHeader (by omega) (rs.getD s.h 0#8 ||| 0x80#8)
  exact faultless_withRead (h.byteAt_getD (by omega)) (faultless_withRead hframe (faultless_next _))

theorem execDecrsp_faultless : Faultless (execDecrsp s) := by
  obtain ⟨rs, hrx⟩ := hs.exists_holds .rxb
  obtain ⟨qs, htx⟩ := hs.exists_holds .txb
  refine faultless_guard fun _ => faultless_guard fun hready => ?_
  obtain ⟨hc, h1⟩ := not_or.mp hready
  obtain ⟨hlen, -⟩ := hs.complete_length (not_not.mp hc) hrx
  have hbody := htx.bodyLen_le
  exact faultless_withRead (hrx.responseFields htx (by omega) (by omega)) (faultless_next _)

theorem checkCount_faultless (c : FClass) (width : Width) (n : Half) : Faultless (s.checkCount c width n) := by
  obtain ⟨rs, h⟩ := hs.exists_holds .rxb
  have hbody := h.bodyLen_le
  refine faultless_guard fun _ => faultless_guard fun h2 => ?_
  exact faultless_withRead (h.byteAt_getD (by omega)) (faultless_guard fun _ => faultless_next _)

theorem execChkqty_faultless (w : Byte) : Faultless (execChkqty w s) := by
  obtain ⟨rs, hrx⟩ := hs.exists_holds .rxb
  obtain ⟨qs, htx⟩ := hs.exists_holds .txb
  have hbody := htx.bodyLen_le
  unfold execChkqty
  split
  · exact faultless_next _
  · refine faultless_guard fun _ => faultless_guard fun hready => ?_
    obtain ⟨hc, h1⟩ := not_or.mp hready
    obtain ⟨-, hexc⟩ := hs.complete_length (not_not.mp hc) hrx
    split
    · next hre =>
      have hlen := hexc hre
      exact faultless_withRead (hrx.byteAt_getD (by omega)) (faultless_next _)
    · refine faultless_withRead (htx.byteAt_getD (by omega)) ?_
      refine faultless_ite (faultless_next _) fun _ => faultless_guard fun h5 => ?_
      exact faultless_withRead (htx.be16At (by omega)) (checkCount_faultless hs _ _ _)

theorem execUnpack_faultless (w : Byte) (idx : Half) : Faultless (execUnpack w idx s) := by
  obtain ⟨rs, h⟩ := hs.exists_holds .rxb
  unfold execUnpack
  split
  · exact faultless_next _
  · refine faultless_guard fun _ => faultless_guard fun _ => faultless_guard fun _ => ?_
    rw [h.unpackValue_eq]
    exact faultless_guard fun _ => faultless_next _

theorem exec_host_faultless {i : Instr} (hp : i.port = .host) : Faultless (exec i s) := by
  obtain ⟨qs, htx⟩ := hs.exists_holds .txb
  cases i with
  | nop => exact faultless_next _
  | txclr => exact faultless_next _
  | cfgw reg value => exact execCfgw_faultless s reg value
  | cfgr reg => exact (execCfgr_runsNotBusy s reg).faultless
  | crc16 b len => exact execCrc16_faultless hs b len
  | crcv b len => exact execCrcv_faultless hs b len
  | pushb byte => exact (execPushb_runsNotBusy s byte).faultless
  | ldb b idx => exact execLdb_faultless hs b idx
  | bldreq slave f addr count => exact (execBldreq_runsNotBusy s slave f addr count).faultless
  | bldrsp f => exact execBldrsp_faultless hs f
  | bldexc code => exact execBldexc_faultless hs code
  | final => exact htx.execFinal_runsNotBusy.faultless
  | predict w => exact (htx.execPredict_runsNotBusy w).faultless
  | decreq b => exact execDecreq_faultless hs b
  | decrsp => exact execDecrsp_faultless hs
  | chkqty w => exact execChkqty_faultless hs w
  | unpack w idx => exact execUnpack_faultless hs w idx
  | rxfix e => exact faultless_guard fun _ => faultless_ite (faultless_next _) fun _ => faultless_next _
  | rxund => exact faultless_guard fun _ => faultless_next _
  | _ => nomatch hp

end

/-! ## The receiver reads only bytes that have arrived -/

section
variable {s : State} {bs : List Byte} (h : s.Holds .rxb bs)
include h

theorem State.Holds.finish_faultless (hl : s.h + s.ck ≤ bs.length) (h1 : s.h < bs.length) : Faultless s.finish := by
  by_cases ha : FrameAccepted s.mode bs
  · rw [h.finish_accepted hl h1 ha]
    exact faultless_next _
  · rw [h.finish_rejected hl ha]
    exact faultless_next _

/-- `timeout()` looks at a frame as long as an exception response alone (43_receiver R208). -/
theorem State.Holds.timeout_faultless : Faultless s.timeout := by
  have hmode := s.mode_lengths
  unfold State.timeout
  split
  · next hfix =>
    obtain ⟨-, hlen⟩ := hfix
    rw [h.rxLen] at hlen
    obtain ⟨good, hgood, -⟩ := h.frameGood (by omega)
    refine faultless_withRead hgood (faultless_ite (faultless_next _) fun _ => ?_)
    exact faultless_withRead (h.byteAt_getD (by omega)) (faultless_ite (faultless_next _) fun _ => faultless_next _)
  · exact faultless_next _

/-- The frame finishes at once only where no checksum follows (43_receiver R203). -/
theorem State.Holds.lengthKnown_faultless {p : Nat} (h1 : s.h < bs.length) (hp : s.ck ≤ p) :
    Faultless (s.lengthKnown p) := by
  refine faultless_ite (faultless_next _) fun _ => faultless_ite (faultless_next _) fun h0 => ?_
  have hck : s.h + s.ck ≤ bs.length := by omega
  exact State.Holds.finish_faultless (State.holds_rxb_congr rfl rfl h) hck h1

/-- `advance()` when the bytes of the current segment are all there (43_receiver R203). -/
theorem State.Holds.advance_faultless (hp : s.Progress) (hlen : bs.length = s.rxTotal.toNat)
    (hmax : bs.length ≤ s.maxAdu) : Faultless s.advance := by
  rcases hp with ⟨hs, htot, -⟩ | ⟨hs, hknown, hunknown⟩
  · have h1 : s.h < bs.length := by omega
    rw [State.advance_awaitFunction hs (h.byteAt_getD h1)]
    refine faultless_ite (faultless_next _) fun _ => ?_
    refine State.Holds.lengthKnown_faultless (bs := bs) ?_ ?_ ?_
    exacts [State.holds_rxb_congr rfl rfl h, h1, Nat.le_refl _]
  · cases hk : s.rxKnown with
    | true =>
      obtain ⟨hmin, -⟩ := h.frameSized_of_totalKnown (hknown hk) hlen hmax
      rw [State.advance_known hs hk]
      exact h.finish_faultless (by omega) (by omega)
    | false =>
      obtain ⟨-, f, hf, htot⟩ := hunknown hk
      rw [xhdr_fclass] at htot
      rw [h.read_rxb (by omega)] at hf
      cases hf
      rw [h.advance_unknown hs hk (by omega)]
      exact h.lengthKnown_faultless (by omega) (Nat.le_add_left _ _)

end

/-- A byte is taken while receiving alone, with room for it in RXB (43_receiver R195, R202). -/
theorem takeByte_faultless {s : State} (hs : s.RxSound) (d : Byte) : Faultless (takeByte d s) := by
  cases hr : s.receiving with
  | false => exact faultless_ite (faultless_refused _) fun hen => absurd hr hen
  | true =>
    obtain ⟨⟨bs, hb⟩, hinv⟩ := hs
    obtain ⟨⟨hneed, hsum, hmax, -⟩, hp⟩ := hinv.progress hr
    have hadu := s.maxAdu_le
    have hlen := hb.rxLen
    have hlen' : (bs ++ [d]).length = bs.length + 1 := List.length_append
    rw [hb.takeByte hr (by omega)]
    split
    · refine (hb.storeByte (by omega) d).advance_faultless (hp.storeByte hb d) ?_ ?_
      · rw [State.storeByte_rxTotal]
        omega
      · change (bs ++ [d]).length ≤ s.maxAdu
        omega
    · exact faultless_next _

theorem exec_event_faultless {i : Instr} {s : State} (hp : i.port = .transport ∨ i.port = .time) (hs : s.RxSound) :
    Faultless (exec i s) := by
  cases hb : brings i with
  | some d => exact exec_of_brings hb s ▸ takeByte_faultless hs d
  | none =>
    cases i with
    | evClosed => exact faultless_ite (faultless_refused _) fun _ => faultless_next _
    | evFail => exact faultless_ite (faultless_refused _) fun _ => faultless_next _
    | evIntr => exact faultless_ite (faultless_refused _) fun _ => faultless_next _
    | tick =>
      obtain ⟨⟨bs, h⟩, -⟩ := hs
      refine faultless_ite (faultless_next _) fun _ => faultless_ite (faultless_next _) fun _ => ?_
      exact h.timeout_faultless
    | _ => simp [Instr.port, brings] at hp hb

/-! ## Every step -/

theorem exec_faultless {s : State} (hs : s.Inv) (i : Instr) : Faultless (exec i s) := by
  obtain ⟨-, -, hrx, -⟩ := State.inv_iff.mp hs
  cases hp : i.port with
  | host => exact exec_host_faultless hs hp
  | transport => exact exec_event_faultless (.inl hp) hrx
  | time => exact exec_event_faultless (.inr hp) hrx
  | reset =>
    obtain rfl := Instr.eq_reset_of_port hp
    exact faultless_next _

/-- The invariant says nothing of what the environment has yet to deliver. -/
theorem State.Inv.of_nextEvent {s u : State} {p : PortWord} (hs : s.Inv) (hn : s.nextEvent = some (p, u)) : u.Inv := by
  obtain ⟨hwf, hfill, htx, hrx, hsta, hr7⟩ := hs
  rw [State.nextEvent_block hn]
  exact ⟨hwf, hfill, htx, hrx, hsta, hr7⟩

/-- A step finds nothing enabled, runs an instruction from the invariant, or refuses a malformed word. -/
theorem step_faultless {s : State} (hs : s.Inv) : Faultless (step s) := by
  cases hn : s.nextEvent with
  | none =>
    rw [step, runNext, hn]
    exact faultless_refused _
  | some event =>
    obtain ⟨p, u⟩ := event
    cases hd : decode p with
    | ok i =>
      rw [step_eq_exec hn hd]
      exact exec_faultless (hs.of_nextEvent hn) i
    | error e =>
      rw [step_eq_refuse hn hd]
      exact faultless_next _

/-- Settles O50: every read stands behind a test that the invariant puts inside the valid bytes. -/
theorem noStepFaults : Obligations.NoStepFaults := fun _ r hs => step_faultless hs r

end Sys2Proof.Machine
end

section
/-!
PROOFS. The family 70_reset_and_hazards: the invariant holds after RESET (R280), and a transport that interrupts more
often than once per `rx_reload` ticks keeps a silent receive alive for ever (R297).
-/

namespace Sys2Proof.Machine

/-! ## RESET -/

/-- Settles O47: the case of `State.reset_inv` in which the environment delivers nothing. -/
theorem resetMeetsInvariant : Obligations.ResetMeetsInvariant := State.reset_inv [] (.again [])

/-! ## Runs of steps -/

theorem runSteps_succ {s t : State} (n : Nat) (h : step s = .next t) : runSteps (n + 1) s = runSteps n t := by
  rw [runSteps, h]

theorem runSteps_add {m : Nat} {s t : State} (n : Nat) (h : runSteps m s = .next t) :
    runSteps (m + n) s = runSteps n t := by
  induction m generalizing s with
  | zero =>
    cases h
    rw [Nat.zero_add]
  | succ m ih =>
    cases hs : step s with
    | next u =>
      rw [runSteps_succ m hs] at h
      rw [Nat.add_right_comm, runSteps_succ _ hs, ih h]
    | fault r => simp [runSteps, hs] at h
    | refused r => simp [runSteps, hs] at h

/-- A run that comes back to where it began can be repeated any number of times. -/
theorem runSteps_mul_of_returns {n : Nat} {s : State} (h : runSteps n s = .next s) (m : Nat) :
    runSteps (m * n) s = .next s := by
  induction m with
  | zero => rw [Nat.zero_mul, runSteps]
  | succ m ih => rw [Nat.succ_mul, runSteps_add n ih, h]

/-! ## A silent receive -/

/-- `s` with other deliveries waiting and another count of the wait: all that changes in a silent receive. -/
def State.waiting (s : State) (ps : List PortWord) (v : Word) : State := { s with inbox := ps, rxTimer := v }

@[simp] theorem State.waiting_receiving (s : State) (ps : List PortWord) (v : Word) :
    (s.waiting ps v).receiving = s.receiving := rfl

theorem State.waiting_eq_self {s : State} {ps : List PortWord} {v : Word} (hi : s.inbox = ps) (hv : s.rxTimer = v) :
    s.waiting ps v = s := by
  subst hi hv
  rfl

/-- While receiving every delivery is enabled, so the oldest is the next (43_receiver R195). -/
theorem nextDelivery_of_receiving {s : State} (hr : s.receiving = true) (p : PortWord) (ps : List PortWord) :
    nextDelivery s.receiving (p :: ps) = some (p, ps) :=
  nextDelivery_append_cons (skipped := []) ps (by simp) (.inl rfl) (.inl hr)

section
variable {s : State} {v : Word} (hr : s.receiving = true)
include hr

theorem State.nextEvent_waiting (p : PortWord) (ps : List PortWord) (v : Word) :
    (s.waiting (p :: ps) v).nextEvent = some (p, s.waiting ps v) :=
  State.nextEvent_of_inbox (nextDelivery_of_receiving hr p ps)

/-- A step that takes a tick with at least two ticks left counts the wait down (43_receiver R207). -/
theorem step_waiting_tick (ps : List PortWord) (h : 2 ≤ v.toNat) :
    step (s.waiting (.tick :: ps) v) = .next (s.waiting ps (BitVec.ofNat 32 (v.toNat - 1))) :=
  (step_eq_exec (State.nextEvent_waiting hr _ ps v) rfl).trans (exec_tick_down (s := s.waiting ps v) hr h)

/-- A step that takes EV.INTR re-arms the wait (43_receiver R210). -/
theorem step_waiting_interrupt (ps : List PortWord) (v : Word) :
    step (s.waiting (.transport 0x300#10 :: ps) v) = .next (s.waiting ps s.rxReload) :=
  (step_eq_exec (i := .evIntr) (State.nextEvent_waiting hr _ ps v) rfl).trans (if_neg (by simp [hr]))

/-- Ticks before the wait's last only count down (43_receiver R207), now as steps. -/
theorem runSteps_waiting_ticks {n : Nat} (ps : List PortWord) (hn : n < max v.toNat 1) :
    runSteps n (s.waiting (List.replicate n .tick ++ ps) v) =
      .next (s.waiting ps (BitVec.ofNat 32 (v.toNat - n))) := by
  induction n generalizing v with
  | zero => simp [runSteps]
  | succ n ih =>
    have htimer : (BitVec.ofNat 32 (v.toNat - 1)).toNat = v.toNat - 1 := by
      rw [BitVec.toNat_ofNat, Nat.mod_eq_of_lt (by omega)]
    have hstep := step_waiting_tick hr (List.replicate n .tick ++ ps) (v := v) (by omega)
    rw [List.replicate_succ, List.cons_append, runSteps_succ n hstep, ih (by omega), htimer, Nat.sub_sub,
      Nat.add_comm 1 n]

/-- With the inbox empty a run goes as if what the environment repeats stood there once (log entry 1). -/
theorem runSteps_waiting_nil {items : List PortWord} (hl : s.later = .again items) (hne : items ≠ []) (n : Nat) :
    runSteps (n + 1) (s.waiting [] v) = runSteps (n + 1) (s.waiting items v) := by
  obtain ⟨p, ps, rfl⟩ := List.exists_cons_of_ne_nil hne
  have hempty : (s.waiting [] v).nextEvent = some (p, s.waiting ps v) :=
    State.nextEvent_of_again rfl hl (nextDelivery_of_receiving hr p ps)
  have hstep : step (s.waiting [] v) = step (s.waiting (p :: ps) v) := by
    rw [step, step, runNext, runNext, hempty, State.nextEvent_waiting hr]
  rw [runSteps, runSteps, hstep]

end

/-! ## Interrupts keep it alive -/

section
variable {s : State} {k : Nat} (hr : s.receiving = true)
  (hl : s.later = .again (List.replicate k .tick ++ [.transport 0x300#10])) (hk : k < max s.rxReload.toNat 1)
include hr hl hk

/-- A round of ticks and an interrupt comes back to the state it began in (70_reset_and_hazards R297). -/
theorem runSteps_interrupt_round :
    runSteps (k + 1) (s.waiting [] s.rxReload) = .next (s.waiting [] s.rxReload) := by
  rw [runSteps_waiting_nil hr hl (by simp), runSteps_add 1 (runSteps_waiting_ticks hr _ hk),
    runSteps_succ 0 (step_waiting_interrupt hr _ _), runSteps]

/-- Inside a round the wait alone has gone down: by the ticks taken, the rest of the round standing in the inbox. -/
theorem runSteps_inside_interrupt_round {j : Nat} (hj : j ≤ k) :
    ∃ ps, runSteps j (s.waiting [] s.rxReload) = .next (s.waiting ps (BitVec.ofNat 32 (s.rxReload.toNat - j))) ∧
      (j = 0 → ps = []) := by
  cases j with
  | zero => exact ⟨[], by simp [runSteps], fun _ => rfl⟩
  | succ j =>
    obtain ⟨d, rfl⟩ := Nat.exists_eq_add_of_le hj
    rw [← List.replicate_append_replicate, List.append_assoc] at hl
    exact ⟨_, (runSteps_waiting_nil hr hl (by simp) j).trans (runSteps_waiting_ticks hr _ (by omega)), nofun⟩

end

/-- Settles O44: the `m` whole rounds come back to the state they began in, and the `j` ticks begin one more. -/
theorem interruptsKeepAReceiveAlive : Obligations.InterruptsKeepAReceiveAlive := by
  intro s k hr hi hl ht hk m j hj
  have hrounds := runSteps_mul_of_returns (runSteps_interrupt_round hr hl hk) m
  have hinside := runSteps_inside_interrupt_round hr hl hk hj
  rw [← runSteps_add j hrounds, State.waiting_eq_self hi ht] at hinside
  exact hinside

end Sys2Proof.Machine
end
